-- ==== Sys2Proof/Word.lean ====
section
/-! DEFINITION. The words of the wire and of the flash, the four-class set, and tables of a fixed number of like records. -/

namespace Sys2Proof

/-- One byte, as the cue bus and the flash carry it. -/
abbrev Byte := BitVec 8

/-- A class set (00_scope 0.6): bit 0 is class A, bit 1 class B, bit 2 class C, bit 3 class D (10.1). -/
abbrev ClassSet := BitVec 4

/-- A group set as an ARM or DISARM carries it: bit g is group g (10.1). -/
abbrev GroupSet := BitVec 16

/-- The smallest whole number at or above `a / b`, as the spec's ceil. -/
def ceilDiv (a b : Nat) : Nat := (a + b - 1) / b

/-- Exactly `n` records, numbered from 0. -/
structure Table (n : Nat) (α : Type) where
  items : List α
  size : items.length = n
  deriving DecidableEq, Repr

/-- The table that holds `a` everywhere. -/
def Table.fill (n : Nat) {α : Type} (a : α) : Table n α :=
  ⟨List.replicate n a, List.length_replicate⟩

/-- The table whose record i is `f i`, for the records of a list of the right length. -/
def Table.ofList {n : Nat} {α : Type} (l : List α) (h : l.length = n) : Table n α := ⟨l, h⟩

def Table.get {n : Nat} {α : Type} (t : Table n α) (i : Fin n) : α :=
  t.items[i.val]'(by rw [t.size]; exact i.isLt)

def Table.set {n : Nat} {α : Type} (t : Table n α) (i : Fin n) (a : α) : Table n α :=
  ⟨t.items.set i.val a, by rw [List.length_set, t.size]⟩

def Table.map {n : Nat} {α β : Type} (f : α → β) (t : Table n α) : Table n β :=
  ⟨t.items.map f, by rw [List.length_map, t.size]⟩

/-- Record i of the result is `f i` of record i. -/
def Table.mapIdx {n : Nat} {α β : Type} (f : Nat → α → β) (t : Table n α) : Table n β :=
  ⟨t.items.mapIdx f, by rw [List.length_mapIdx, t.size]⟩

@[simp] theorem Table.get_set_self {n : Nat} {α : Type} (t : Table n α) (i : Fin n) (a : α) :
    (t.set i a).get i = a := by
  simp [Table.get, Table.set]

@[simp] theorem Table.get_set_ne {n : Nat} {α : Type} (t : Table n α) {i j : Fin n} (a : α) (h : i ≠ j) :
    (t.set i a).get j = t.get j := by
  have hv : i.val ≠ j.val := fun e => h (Fin.ext e)
  simp [Table.get, Table.set, hv]

theorem Table.get_set {n : Nat} {α : Type} (t : Table n α) (i j : Fin n) (a : α) :
    (t.set i a).get j = if i = j then a else t.get j := by
  by_cases h : i = j
  · subst h; simp
  · simp [h]

@[simp] theorem Table.get_map {n : Nat} {α β : Type} (f : α → β) (t : Table n α) (i : Fin n) :
    (t.map f).get i = f (t.get i) := by
  simp [Table.get, Table.map]

@[simp] theorem Table.get_mapIdx {n : Nat} {α β : Type} (f : Nat → α → β) (t : Table n α) (i : Fin n) :
    (t.mapIdx f).get i = f i.val (t.get i) := by
  simp [Table.get, Table.mapIdx]

@[simp] theorem Table.get_fill {n : Nat} {α : Type} (a : α) (i : Fin n) :
    (Table.fill n a).get i = a := by
  simp [Table.get, Table.fill]

/-- Two tables that hold the same record everywhere are one table. -/
theorem Table.ext_get {n : Nat} {α : Type} (t u : Table n α) (h : ∀ i, t.get i = u.get i) : t = u := by
  obtain ⟨l, hl⟩ := t
  obtain ⟨m, hm⟩ := u
  congr
  apply List.ext_getElem (by rw [hl, hm])
  intro k h1 h2
  exact h ⟨k, hl ▸ h1⟩

end Sys2Proof
end

