-- ==== Sys2Proof/Syntax.lean ====
section
/-! DEFINITION. The commands of the part: one constructor for each row of spec/opcode_table.json, with what the outside brings. -/

namespace Sys2Proof

/-- The two output pairs (00_scope 0.5). -/
inductive OutPair where
  | pgm
  | floor
  deriving DecidableEq, Repr

/-- Where a pending request waits: the request of a line, or a place of the remote queue counted from its head (R36). -/
inductive RequestPlace where
  | line (n : Fin 8)
  | remote (place : Fin 4)
  deriving DecidableEq, Repr

/-- Whose frame completes: this station's own, HEARD or UNHEARD (R141), or that of the station whose number is given (R142). -/
inductive Sender where
  | own (heard : Bool)
  | other (source : BitVec 5)
  deriving DecidableEq, Repr

/-- The commands. The docstring of each names its row and the rule the row cites. -/
inductive Instr where
  /-- RESET (R159) -/
  | reset
  /-- CONFIG_READ_END (R161): the bytes read. -/
  | configReadEnd (bytes : List Byte)
  /-- DIRECTORY_READ_END (R163): the bytes read. -/
  | directoryReadEnd (bytes : List Byte)
  /-- SAMPLE_INSTANT (R13) -/
  | sampleInstant
  /-- END_OF_DATA (R55) -/
  | endOfData (slot : Fin 8)
  /-- FADE_STEP (R95) -/
  | fadeStep (slot : Fin 8)
  /-- DUCK_STEP (R101) -/
  | duckStep (slot : Fin 8)
  /-- BLOCK_BOUNDARY (R1): the electrical level at each line, bit n for line n, 1 for high (R24). -/
  | blockBoundary (levels : Byte)
  /-- PLAY_PRESS (R27) -/
  | playPress (line : Fin 8)
  /-- PLAY_RELEASE (R30) -/
  | playRelease (line : Fin 8)
  /-- SEND_PRESS (R31) -/
  | sendPress (line : Fin 8)
  /-- SEND_RELEASE (R31) -/
  | sendRelease (line : Fin 8)
  /-- REQUEST_EXPIRY (R34) -/
  | requestExpiry (which : RequestPlace)
  /-- DEAD_AIR (R122) -/
  | deadAir (pair : OutPair)
  /-- OVERLOAD_TRIP (R125) -/
  | overloadTrip (pair : OutPair)
  /-- RECOVERY_WAIT_END (R126) -/
  | recoveryWaitEnd (pair : OutPair)
  /-- ATTEMPTS_FORGIVEN (R127) -/
  | attemptsForgiven (pair : OutPair)
  /-- JOIN_WAIT_END (R165) -/
  | joinWaitEnd
  /-- HOLD_UNIT_BOUNDARY (R67) -/
  | holdUnitBoundary
  /-- PENALTY_END (R29) -/
  | penaltyEnd (line : Fin 8)
  /-- DUCK_ENTRY_EXPIRY (R108): the key of the entry. -/
  | duckEntryExpiry (source : BitVec 5) (tag : Byte)
  /-- READ_END (R18): the bytes the read brought. -/
  | readEnd (bytes : List Byte)
  /-- BUS_IDLE (R131) -/
  | busIdle
  /-- FRAME_BEGIN (R132) -/
  | frameBegin
  /-- ARBITRATION_LOST (R137) -/
  | arbitrationLost
  /-- BIT_ERROR (R139) -/
  | bitError
  /-- RX_DISCARD (R134): the levels read after the start bit, true for recessive. -/
  | rxDiscard (bits : List Bool)
  /-- OWN_CLAIM_COMPLETE (R81) -/
  | ownClaimComplete (heard : Bool)
  /-- CLAIM (R82) -/
  | claim (source : BitVec 5) (group cue : Byte)
  /-- OWN_HELD_COMPLETE (R87) -/
  | ownHeldComplete (heard : Bool)
  /-- HELD (R86) -/
  | held (source : BitVec 5) (group : Byte)
  /-- RELEASE (R89) -/
  | release (sender : Sender) (group : Byte)
  /-- OWN_START_COMPLETE (R65) -/
  | ownStartComplete (heard : Bool)
  /-- START (R104) -/
  | start (source : BitVec 5) (group cue tag : Byte) (emit : ClassSet) (depth hold : Byte)
  /-- OWN_END_COMPLETE (R141) -/
  | ownEndComplete (heard : Bool)
  /-- END (R107) -/
  | endFrame (source : BitVec 5) (tag group : Byte)
  /-- OWN_HOLD_COMPLETE (R68) -/
  | ownHoldComplete (heard : Bool)
  /-- HOLD (R106) -/
  | hold (source : BitVec 5) (tag hold : Byte)
  /-- STOP (R70) -/
  | stop (sender : Sender) (target cue : Byte) (fade : BitVec 3)
  /-- ALL_STOP (R71) -/
  | allStop (sender : Sender) (target : Byte) (fade : BitVec 3)
  /-- FIRE (R33) -/
  | fire (sender : Sender) (target cue : Byte)
  /-- ARM (R74) -/
  | arm (sender : Sender) (groups : GroupSet)
  /-- DISARM (R75) -/
  | disarm (sender : Sender) (groups : GroupSet)
  /-- ASK (R152) -/
  | ask (source : BitVec 5) (target : Byte)
  /-- OWN_STATUS_COMPLETE (R156) -/
  | ownStatusComplete (heard : Bool)
  /-- RX_UNAPPLIED_FRAME (R143) -/
  | rxUnappliedFrame (kind source : BitVec 5) (payload : List Byte)
  /-- RX_OWN_NUMBER_FRAME (R167): a frame whose source is this station's number. -/
  | rxOwnNumberFrame (kind : BitVec 5) (payload : List Byte)
  /-- RX_FRESH_STATUS_OWN_NUMBER (R168): the six payload bytes (10.4). -/
  | rxFreshStatusOwnNumber (b0 b1 b2 b3 b4 b5 : Byte)
  /-- RX_START_BIT (R132) -/
  | rxStartBit
  /-- STATUS (R158): the six payload bytes (10.4). -/
  | status (source : BitVec 5) (b0 b1 b2 b3 b4 b5 : Byte)
  deriving DecidableEq, Repr

end Sys2Proof
end

