-- ==== Sys2Proof/Decode.lean ====
section
/-! DEFINITION. The commands that a word spells by the bits of spec/opcode_table.json: the table gives no row any bits. -/

namespace Sys2Proof

/-- The command spelled by a word of the given number of bits; no row of the table has bits, so there is none (log entry 23). -/
def decodeTableWord (nbits w : Nat) : Option Instr :=
  match nbits, w with
  | _, _ => none

end Sys2Proof
end

