-- ==== Sys2Proof/Config.lean ====
section
/-! DEFINITION. The numbers the spec fixes for the part, and the one free value the spec leaves open. -/

namespace Sys2Proof.Config

/-- Which of several things the spec lets be taken first is taken first, and whether an error flag is over by a sample instant (log entry
34), at the n-th such choice since power-on.
It has no body that anything may rest on: the spec gives no order, so a statement holds whatever it answers (log entry 6). -/
opaque freeChoice : Nat → Nat

/-- Sample instants in a hold unit (R64). -/
def samplesPerHoldUnit : Nat := 480
/-- Sample instants in a block (R1). -/
def samplesPerBlock : Nat := 48
/-- Blocks in a hold unit (R1). -/
def blocksPerHoldUnit : Nat := 10
/-- Blocks in a lamp cycle (R1). -/
def blocksPerLampCycle : Nat := 250
/-- Blocks of a lamp cycle during which a blinking lamp is lit (R47). -/
def blocksLit : Nat := 125
/-- Frames of a whole chunk (R16), and the count that completes priming (R19). -/
def chunk : Nat := 256
/-- A voice that holds more frames than this needs no chunk (R12). -/
def needBelow : Nat := 768
/-- Entries of the transmit queue (R144). -/
def queueSize : Nat := 8
/-- Entries of the remote queue (R33). -/
def remoteSize : Nat := 4
/-- Entries of the duck list (R103). -/
def duckSize : Nat := 16
/-- Overloaded blocks in a row that trip a pair (R124). -/
def tripRun : Nat := 16
/-- Recoveries a pair may use under SHORT and LONG (R125). -/
def maxAttempts : Nat := 3
/-- Blocks of NORMAL after which attempts are forgiven (R127). -/
def forgiveTime : Nat := 5000
/-- Block boundaries of the join wait (R165). -/
def joinBlocks : Nat := 20
/-- Attempts of a frame (R140). -/
def maxBusAttempts : Nat := 3
/-- Recessive bit times after which the bus reads as idle (R131). -/
def idleBits : Nat := 12
/-- H at or below which a hold is refreshed (R67). -/
def refreshAt : Nat := 50
/-- Codes that V falls by in one sample at the CUT rate (R96). -/
def cutStep : Nat := 8
/-- Bytes of flash (R5). -/
def flashBytes : Nat := 16777216

end Sys2Proof.Config
end

