-- ==== Sys2Proof/Machine/State.lean ====
section
/-! DEFINITION. Every piece of state the spec gives the station, as plain data, and the station right after reset. -/

namespace Sys2Proof.Machine

/-- The spec names no fault that stops the part: no constructor, so no step faults (INVENTORY.md, Faults). -/
inductive Fault where
  deriving DecidableEq, Repr

inductive Refusal where
  /-- Raised by an arm of `exec` for a command that has no meaning yet; safe. No arm raises it. -/
  | notModelled (mnemonic : String)
  /-- Raised by a command whose operand list has a length its event cannot have (log entry 5); safe. -/
  | malformed
  deriving DecidableEq, Repr

/-! ## The cue directory (DIR) -/

inductive Format where
  | mono
  | stereo
  deriving DecidableEq, Repr

/-- The play modes, with the loop points that LOOP and LOOP_TAIL have (R3). -/
inductive PlayMode where
  | oneShot
  | loop (first last : Nat)
  | loopTail (first last : Nat)
  deriving DecidableEq, Repr

inductive Route where
  | pgm
  | floor
  | both
  deriving DecidableEq, Repr

inductive Retrigger where
  | restart
  | ignore
  | toggle
  | layer
  deriving DecidableEq, Repr

/-- The fields of a PRESENT record (R3). -/
structure Cue where
  start : Nat
  length : Nat
  format : Format
  mode : PlayMode
  level : Nat
  route : Route
  group : Nat
  priority : Nat
  retrigger : Retrigger
  fadeIn : Nat
  fadeOut : Nat
  emit : ClassSet
  depth : Nat
  listen : ClassSet
  deriving DecidableEq, Repr

/-- The state of a record of the cue table (R2); an ABSENT or BAD record gives no fields. -/
inductive CueRecord where
  | present (cue : Cue)
  | absent
  | bad
  deriving DecidableEq, Repr

/-! ## The configuration (R162, 10.3) -/

/-- A line's action (02 2.1): PLAY with a cue number, or SEND with a frame as it stands in the line record. -/
inductive LineAction where
  | play (cue : Byte)
  | sendFire (target cue : Byte) (releaseFade : BitVec 3)
  | sendStop (target cue : Byte) (fade : BitVec 3)
  | sendArm (groups : GroupSet)
  | sendDisarm (groups : GroupSet)
  | sendRelease (group : Byte)
  deriving DecidableEq, Repr

inductive EarlyPolicy where
  | discard
  | latch
  | penalty
  deriving DecidableEq, Repr

inductive Tally where
  | voice
  | holder
  | group (g : Nat)
  | off
  deriving DecidableEq, Repr

structure LineConfig where
  action : LineAction
  gate : Bool
  activeHigh : Bool
  early : EarlyPolicy
  tally : Tally
  deriving DecidableEq, Repr

inductive GroupMode where
  | none
  | lastWins
  | firstWins
  deriving DecidableEq, Repr

structure GroupConfig where
  mode : GroupMode
  manual : Bool
  chokeFade : Nat
  armedAtStart : Bool
  deriving DecidableEq, Repr

inductive Recovery where
  | off
  | short
  | long
  | endless
  deriving DecidableEq, Repr

structure StationConfig where
  number : Nat
  wide : Bool
  rotating : Bool
  debounce : Nat
  expiry : Nat
  penaltyTime : Nat
  attack : Nat
  release : Nat
  trimPgm : Nat
  trimFloor : Nat
  hot : Nat
  silence : Nat
  deadAirTime : Nat
  overloadK : Nat
  recovery : Recovery
  lines : Table 8 LineConfig
  groups : Table 15 GroupConfig
  deriving DecidableEq, Repr

/-! ## Station mode (LDR) -/

inductive Mode where
  | loading
  | joining
  | run
  | silent
  deriving DecidableEq, Repr

/-- Which read LOADING waits for (R160). -/
inductive LoadStage where
  | config
  | configAgain
  | directory
  deriving DecidableEq, Repr

/-- How far the join has come (R165). `waiting n`: n block boundaries counted since the join STATUS completed. -/
inductive JoinStage where
  | notOffered
  | offered
  | waiting (blocks : Nat)
  | done
  deriving DecidableEq, Repr

/-- The counters of R1. `samples` runs to 48, where a block boundary is due, and `blocks` to 10, where a hold-unit boundary is (log
entry 19). -/
structure Timebase where
  divider : Nat
  samples : Nat
  blocks : Nat
  lamp : Nat
  deriving DecidableEq, Repr

/-! ## Trigger lines and requests (TRG) -/

/-- A line request (R32); its line is the one whose record holds it. -/
structure Request where
  cue : Nat
  latched : Bool
  age : Nat
  deriving DecidableEq, Repr

structure RemoteEntry where
  cue : Nat
  source : Nat
  age : Nat
  deriving DecidableEq, Repr

inductive LineEvent where
  | press
  | release
  deriving DecidableEq, Repr

/-- What TRG holds for one line. `accepted` is none until the first sample (R24); true is ACTIVE.
`event` is the model's own (log entry 2): an event given at a boundary and not yet acted on. `penaltyNew` is the model's own (log entry
36): the penalty began at the hold-unit boundary that is due, and that boundary does not count it down. -/
structure Line where
  accepted : Option Bool
  changes : Nat
  event : Option LineEvent
  request : Option Request
  penalty : Option Nat
  penaltyNew : Bool
  owedRelease : Bool
  deriving DecidableEq, Repr

/-- The outcomes of a request (02 2.6). -/
inductive RequestOutcome where
  | played
  | playedStop
  | refused
  | lost
  | expired
  | withdrawn
  deriving DecidableEq, Repr

/-! ## Voices (VCE, LVL and FCH's buffers) -/

inductive VoiceState where
  | free
  | claiming
  | priming
  | sounding
  | releasing
  deriving DecidableEq, Repr

inductive Source where
  | none
  | line (n : Fin 8)
  | remote
  deriving DecidableEq, Repr

/-- A release rate (R56): a fade index, CUT, or TAIL. -/
inductive Rate where
  | fade (k : Nat)
  | cut
  | tail
  deriving DecidableEq, Repr

/-- The announce state, with the hold remaining H that only an ANNOUNCED voice has (R48). -/
inductive Announce where
  | localOnly
  | queued
  | announced (hold : Nat)
  deriving DecidableEq, Repr

/-- The claimed request of a voice (R45): none, open while the voice is CLAIMING, or settled PLAYED. -/
inductive Claimed where
  | none
  | openClaim
  | played
  deriving DecidableEq, Repr

inductive Direction where
  | rising
  | falling
  | atRest
  deriving DecidableEq, Repr

/-- A sample frame in a buffer (R7): one sample, or a left and a right one. -/
inductive SampleFrame where
  | mono (x : Int)
  | stereo (l r : Int)
  deriving DecidableEq, Repr

/-- D, its step counter and its direction as they stood before a DUCK_STEP of the coming sample instant (log entry 7). -/
structure DuckBefore where
  duck : Nat
  dCount : Nat
  dDir : Direction
  deriving DecidableEq, Repr

/-- One voice record (R48), LVL's state for the slot (R93) and the slot's buffer (R11).
`tail` is the tail flag with the crossing offset X of R10. `buffer` holds the frames from the play offset on.
`vDone` and `dBefore` are the model's own (log entry 7). -/
structure Voice where
  generation : Nat
  state : VoiceState
  cue : Nat
  source : Source
  startSeq : Nat
  playOffset : Nat
  fetchOffset : Nat
  tail : Option Nat
  rate : Option Rate
  level : Nat
  target : Nat
  announce : Announce
  stopMark : Bool
  claimed : Claimed
  duck : Nat
  vCount : Nat
  dCount : Nat
  dDir : Direction
  vDone : Bool
  dBefore : Option DuckBefore
  buffer : List SampleFrame
  deriving DecidableEq, Repr

/-- The owed END (R66). -/
structure OwedEnd where
  tag : Nat
  group : Nat
  deriving DecidableEq, Repr

/-! ## The flash link (FCH) -/

structure Read where
  address : Nat
  count : Nat
  first : Nat
  drop : Bool
  deriving DecidableEq, Repr

/-- A transfer (R14). The head of `reads` is the read under way. `format` is that of the cue the transfer was formed for (R16). -/
structure Transfer where
  slot : Fin 8
  generation : Nat
  format : Format
  abandon : Bool
  reads : List Read
  deriving DecidableEq, Repr

/-! ## Groups (GRP) -/

/-- A station's view of one group (R72). The holding voice is a slot and a tag. -/
structure GroupView where
  armed : Bool
  holder : Option Nat
  lastWinner : Nat
  holdingVoice : Option (Fin 8 × Nat)
  holdingLine : Option (Fin 8)
  deriving DecidableEq, Repr

/-! ## The duck list (LVL) -/

structure DuckEntry where
  source : Nat
  tag : Nat
  classes : ClassSet
  depth : Nat
  remaining : Nat
  deriving DecidableEq, Repr

/-! ## Output pairs (OUT) -/

inductive Protection where
  | normal
  | tripped
  | locked
  deriving DecidableEq, Repr

/-- One output pair: its accumulators (R115), monitor (R119), dead-air counter (R121), protection record (R123)
and port (R118: the frame being sent, and the one formed for the next instant). -/
structure Pair where
  accL : Int
  accR : Int
  clips : Nat
  peak : Nat
  allNormal : Bool
  allSounding : Bool
  deadAir : Nat
  prot : Protection
  attempts : Nat
  run : Nat
  wait : Nat
  normalTime : Nat
  port : Int × Int
  portNext : Int × Int
  deriving DecidableEq, Repr

/-! ## The cue bus (BUS) -/

/-- A frame by its kind and the fields of 10.1. A STATUS carries its six payload bytes (10.4). -/
inductive Frame where
  | claim (group cue : Byte)
  | held (group : Byte)
  | release (group : Byte)
  | start (group cue tag : Byte) (emit : ClassSet) (depth hold : Byte)
  | endFrame (tag group : Byte)
  | hold (tag hold : Byte)
  | stop (target cue : Byte) (fade : BitVec 3)
  | fire (target cue : Byte)
  | arm (groups : GroupSet)
  | disarm (groups : GroupSet)
  | ask (target : Byte)
  | status (b0 b1 b2 b3 b4 b5 : Byte)
  deriving DecidableEq, Repr

/-- An entry of the transmit queue (R144), at its place in the queue's order, with its arbitration key (R133). -/
structure Entry where
  frame : Frame
  key : Nat
  attempts : Nat
  inFlight : Bool
  deriving DecidableEq, Repr

/-- What the station drives on the wire: nothing, the bits of its frame from the start bit on, or the bits of an error flag (R139). -/
inductive Transmitter where
  | idle
  | sending (bits : List Bool)
  | errorFlag (bits : List Bool)
  deriving DecidableEq, Repr

/-- The receiver (R131): off, counting recessive bit times toward idle, reading the bus as idle, or receiving a frame. -/
inductive Receiver where
  | off
  | seekingIdle
  | idle
  | receiving
  deriving DecidableEq, Repr

/-! ## Latched flags (STS) -/

/-- The twelve latched flags (R154). -/
inductive Flag where
  | hotPgm
  | hotFloor
  | deadAirPgm
  | deadAirFloor
  | trip
  | txqDrop
  | duckFull
  | underrun
  | remoteFull
  | expired
  | unheard
  | txFault
  deriving DecidableEq, Repr

/-- A flag and its new mark (R154). -/
structure Latch where
  set : Bool
  fresh : Bool
  deriving DecidableEq, Repr

/-! ## The station -/

structure State where
  mode : Mode
  load : LoadStage
  join : JoinStage
  cfg : StationConfig
  configDefaults : Bool
  badRecords : Nat
  cues : Table 255 CueRecord
  tmb : Timebase
  lines : Table 8 Line
  remote : List RemoteEntry
  pointer : Fin 9
  outcomes : Table 9 (Option RequestOutcome)
  passesDue : Nat
  voices : Table 8 Voice
  startCounter : Nat
  releasing : List (Fin 8)
  owedEnd : Option OwedEnd
  link : Option Transfer
  groups : Table 15 GroupView
  ducks : List DuckEntry
  monitoring : Bool
  pgm : Pair
  floor : Pair
  queue : List Entry
  tx : Transmitter
  rx : Receiver
  idleCount : Nat
  echoed : Bool
  received : Nat
  flags : Table 12 Latch
  fresh : Bool
  choices : Nat
  pending : List Instr
  deriving DecidableEq, Repr

/-! ## Reset values -/

/-- The default line record of R162: PLAY cue n, EDGE, ACTIVE_LOW, DISCARD, tally VOICE. -/
def LineConfig.default (n : Nat) : LineConfig :=
  { action := .play (BitVec.ofNat 8 n), gate := false, activeHigh := false, early := .discard, tally := .voice }

/-- The default group record of R162 and R72. -/
def GroupConfig.default : GroupConfig :=
  { mode := .none, manual := false, chokeFade := 2, armedAtStart := true }

/-- The default configuration (R162). -/
def StationConfig.default : StationConfig where
  number := 0
  wide := true
  rotating := false
  debounce := 5
  expiry := 100
  penaltyTime := 25
  attack := 1
  release := 5
  trimPgm := 255
  trimFloor := 255
  hot := 32768
  silence := 0
  deadAirTime := 200
  overloadK := 24
  recovery := .short
  lines := Table.mapIdx (fun n _ => LineConfig.default n) (Table.fill 8 ())
  groups := Table.fill 15 GroupConfig.default

/-- A line at reset (R24, R29, R30, R32). -/
def Line.reset : Line :=
  { accepted := none, changes := 0, event := none, request := none, penalty := none, penaltyNew := false, owedRelease := false }

/-- A FREE voice of a given generation (R48, R63, R93): everything but the generation at its value at reset. DESIGN CHOICE, log entry 39:
R48 gives the cue number and the start sequence when not FREE only, and a FREE slot holds 0 for both, at reset and after freeing; R11
gives the play offset and the fetch offset 0 at reset and at take, and of entry into FREE says only that the buffer is emptied, and the
model sets both to 0 there too; R45 does not say when a request settled PLAYED leaves its voice, and a FREE slot has no claimed request.
-/
def Voice.freed (generation : Nat) : Voice where
  generation := generation
  state := .free
  cue := 0
  source := .none
  startSeq := 0
  playOffset := 0
  fetchOffset := 0
  tail := none
  rate := none
  level := 0
  target := 0
  announce := .localOnly
  stopMark := false
  claimed := .none
  duck := 0
  vCount := 0
  dCount := 0
  dDir := .atRest
  vDone := false
  dBefore := none
  buffer := []

/-- A group's view at reset (R72). -/
def GroupView.reset (c : GroupConfig) : GroupView :=
  { armed := c.armedAtStart, holder := none, lastWinner := 0, holdingVoice := none, holdingLine := none }

/-- A pair at reset (R119, R121, R123). R123 has a recovery wait in TRIPPED only and a NORMAL time in NORMAL only; that each is held as 0
in the other states is log entry 39. -/
def Pair.reset : Pair where
  accL := 0
  accR := 0
  clips := 0
  peak := 0
  allNormal := false
  allSounding := false
  deadAir := 0
  prot := .normal
  attempts := 0
  run := 0
  wait := 0
  normalTime := 0
  port := (0, 0)
  portNext := (0, 0)

/-- The station right after reset (R159): in LOADING, every block at the reset values of its own chapter. -/
def State.reset : State where
  mode := .loading
  load := .config
  join := .notOffered
  cfg := StationConfig.default
  configDefaults := false
  badRecords := 0
  cues := Table.fill 255 .absent
  tmb := { divider := 0, samples := 0, blocks := 0, lamp := 0 }
  lines := Table.fill 8 Line.reset
  remote := []
  pointer := 0
  outcomes := Table.fill 9 none
  passesDue := 0
  voices := Table.fill 8 (Voice.freed 0)
  startCounter := 0
  releasing := []
  owedEnd := none
  link := none
  groups := Table.map GroupView.reset StationConfig.default.groups
  ducks := []
  monitoring := false
  pgm := Pair.reset
  floor := Pair.reset
  queue := []
  tx := .idle
  rx := .off
  idleCount := 0
  echoed := false
  received := 0
  flags := Table.fill 12 { set := false, fresh := false }
  fresh := true
  choices := 0
  pending := []

end Sys2Proof.Machine
end

