-- ==== Sys2Proof/Machine/Ops.lean ====
section
/-! DEFINITION. The named reads and writes of the station's state that every block shares. -/

namespace Sys2Proof.Machine

/-- The voice slots in order. -/
def slots : List (Fin 8) := [0, 1, 2, 3, 4, 5, 6, 7]

/-- The groups 1 to 15, as places of the group table. -/
def groupPlaces : List (Fin 15) := [0, 1, 2, 3, 4, 5, 6, 7, 8, 9, 10, 11, 12, 13, 14]

/-! ## The timebase -/

/-- The 48th sample instant of the block has come: a block boundary falls before the next one (R1). -/
def Timebase.blockDue (t : Timebase) : Bool := decide (Config.samplesPerBlock ≤ t.samples)

/-- The coming sample instant is the 48th of its block: a block boundary falls with it (R1). -/
def Timebase.boundaryNext (t : Timebase) : Bool := decide (t.samples + 1 = Config.samplesPerBlock)

/-- The 10th block boundary of the hold unit has come: a hold-unit boundary falls before the next sample instant (R1). -/
def Timebase.unitDue (t : Timebase) : Bool := decide (Config.blocksPerHoldUnit ≤ t.blocks)

/-! ## Voices -/

def State.voice (s : State) (v : Fin 8) : Voice := s.voices.get v

def State.setVoice (s : State) (v : Fin 8) (w : Voice) : State :=
  { s with voices := s.voices.set v w }

/-- The tag of the slot's present use (R49): the generation, 0 to 31, times 8 plus the slot, a number of eight bits. -/
def State.tag (s : State) (v : Fin 8) : Nat := ((s.voice v).generation * 8 + v.val) % 256

/-- The slot that a tag names (R49). -/
def tagSlot (tag : Nat) : Fin 8 := Fin.ofNat 8 tag

/-- The states in which a voice plays, is fetched for or ducks (R12, R99). -/
def VoiceState.active : VoiceState → Bool
  | .priming => true
  | .sounding => true
  | .releasing => true
  | .free => false
  | .claiming => false

/-- The states in which a voice plays a frame at a sample instant (R13). -/
def VoiceState.plays : VoiceState → Bool
  | .sounding => true
  | .releasing => true
  | .free => false
  | .claiming => false
  | .priming => false

/-- PRIMING or SOUNDING: the states that a choke, a steal and the retrigger step reach (R39, R40, R42, R77). -/
def VoiceState.fresh : VoiceState → Bool
  | .priming => true
  | .sounding => true
  | .free => false
  | .claiming => false
  | .releasing => false

/-- CLAIMING, PRIMING or SOUNDING: the states steps 4 and 5 of serving look at (R39, R40). -/
def VoiceState.occupies : VoiceState → Bool
  | .claiming => true
  | .priming => true
  | .sounding => true
  | .free => false
  | .releasing => false

/-! ## Cues -/

/-- The record that stands for a cue that is not PRESENT where no voice can have been taken for it.
No run reaches a read of it: a voice is taken only for a PRESENT cue (R37; log entry 17). -/
def Cue.blank : Cue where
  start := 0
  length := 0
  format := .mono
  mode := .oneShot
  level := 0
  route := .pgm
  group := 0
  priority := 0
  retrigger := .ignore
  fadeIn := 0
  fadeOut := 0
  emit := 0
  depth := 0
  listen := 0

/-- The record of a cue number; 255 has none and reads as ABSENT (R2). -/
def State.record (s : State) (c : Nat) : CueRecord :=
  if h : c < 255 then s.cues.get ⟨c, h⟩ else .absent

/-- The fields of a cue that is PRESENT. -/
def State.present? (s : State) (c : Nat) : Option Cue :=
  match s.record c with
  | .present q => some q
  | .absent => none
  | .bad => none

/-- The fields of the cue a voice plays. -/
def State.cueOf (s : State) (w : Voice) : Cue := (s.present? w.cue).getD Cue.blank

/-- The group of a cue number: group 0 for a cue that is not PRESENT (R27). -/
def State.groupOf (s : State) (c : Nat) : Nat :=
  match s.present? c with
  | some q => q.group
  | none => 0

/-! ## Groups -/

/-- The place of group g in the table: none for group 0 and for a number outside 1 to 15 (R72, R73). -/
def groupPlace (g : Nat) : Option (Fin 15) :=
  if h : 1 ≤ g ∧ g ≤ 15 then some ⟨g - 1, by omega⟩ else none

/-- The number of the group at a place of the table. -/
def groupNumber (i : Fin 15) : Nat := i.val + 1

/-- The mode of group g; a group with no record chokes nothing and claims nothing (R72). -/
def State.groupMode (s : State) (g : Nat) : GroupMode :=
  match groupPlace g with
  | some i => (s.cfg.groups.get i).mode
  | none => .none

/-- Whether group g is armed in the view; group 0 always is (R72). -/
def State.armed (s : State) (g : Nat) : Bool :=
  match groupPlace g with
  | some i => (s.groups.get i).armed
  | none => true

/-- The holder of group g in the view. -/
def State.holder (s : State) (g : Nat) : Option Nat :=
  match groupPlace g with
  | some i => (s.groups.get i).holder
  | none => none

/-- The choke fade index of group g. -/
def State.chokeFade (s : State) (g : Nat) : Nat :=
  match groupPlace g with
  | some i => (s.cfg.groups.get i).chokeFade
  | none => 0

def State.setGroup (s : State) (i : Fin 15) (v : GroupView) : State :=
  { s with groups := s.groups.set i v }

/-! ## Lines -/

def State.line (s : State) (n : Fin 8) : Line := s.lines.get n

def State.setLine (s : State) (n : Fin 8) (l : Line) : State :=
  { s with lines := s.lines.set n l }

/-- The settings of a line. -/
def State.lineConfig (s : State) (n : Fin 8) : LineConfig := s.cfg.lines.get n

/-- The cue of a PLAY line (02 2.1). -/
def LineAction.playCue : LineAction → Option Nat
  | .play c => some c.toNat
  | .sendFire _ _ _ => none
  | .sendStop _ _ _ => none
  | .sendArm _ => none
  | .sendDisarm _ => none
  | .sendRelease _ => none

/-- Requests in the request set and the remote queue together (R32). -/
def State.pendingRequests (s : State) : Nat :=
  ((s.lines.items.filter fun l => l.request.isSome).length) + s.remote.length

/-- Voices that are not FREE (R48). -/
def State.voicesInUse (s : State) : Nat :=
  (s.voices.items.filter fun w => decide (w.state ≠ .free)).length

/-! ## Output pairs -/

def State.pair (s : State) : OutPair → Pair
  | .pgm => s.pgm
  | .floor => s.floor

def State.setPair (s : State) : OutPair → Pair → State
  | .pgm, p => { s with pgm := p }
  | .floor, p => { s with floor := p }

/-- Whether a route includes a pair (R110). -/
def Route.has : Route → OutPair → Bool
  | .both, _ => true
  | .pgm, .pgm => true
  | .pgm, .floor => false
  | .floor, .floor => true
  | .floor, .pgm => false

/-- The trim of a pair (R110). -/
def StationConfig.trim (c : StationConfig) : OutPair → Nat
  | .pgm => c.trimPgm
  | .floor => c.trimFloor

/-! ## Outcomes (log entry 13) -/

/-- The place of a source in the outcome record and in the serving order (R36): lines 0 to 7, then the remote queue. -/
def Source.place : Source → Option (Fin 9)
  | .line n => some n.castSucc
  | .remote => some 8
  | .none => Option.none

def State.recordOutcome (s : State) (src : Source) (o : RequestOutcome) : State :=
  match src.place with
  | some i => { s with outcomes := s.outcomes.set i (some o) }
  | none => s

/-- A request of the source ends PLAYED: the rotation pointer takes the position after it (R36). -/
def State.recordPlayed (s : State) (src : Source) : State :=
  match src.place with
  | some i => { s with outcomes := s.outcomes.set i (some .played), pointer := i + 1 }
  | none => s

/-! ## Orders the spec leaves open (log entry 6) -/

/-- Take `f` for each member of the list, in an order the spec does not give: where more than one is left, the free value
says which is next. `fuel` is the length of the list. -/
def visitFrom {α : Type} (f : α → State → State) : Nat → List α → State → State
  | _, [], s => s
  | _, [a], s => f a s
  | 0, _ :: _ :: _, s => s
  | n + 1, a :: b :: rest, s =>
    let all := a :: b :: rest
    let i := Config.freeChoice s.choices % all.length
    visitFrom f n (all.eraseIdx i) (f (all.getD i a) { s with choices := s.choices + 1 })

/-- Take `f` once for each member of the list, in an order the spec does not give. -/
def visit {α : Type} (f : α → State → State) (l : List α) (s : State) : State :=
  visitFrom f l.length l s

/-- Take `f` for each member of the list in the list's order. -/
def inOrder {α : Type} (f : α → State → State) : List α → State → State
  | [], s => s
  | a :: rest, s => inOrder f rest (f a s)

/-! ## Small predicates -/

def State.isRun (s : State) : Bool := decide (s.mode = .run)

def State.isLoading (s : State) : Bool := decide (s.mode = .loading)

/-- Whether two class sets meet (00_scope 0.6). -/
def meets (a b : ClassSet) : Bool := a &&& b != 0

end Sys2Proof.Machine
end

