-- ==== Sys2Proof/Machine/Flags.lean ====
section
/-! DEFINITION. STS: the latched flags (R154), the STATUS payload (R153, 10.4) and what its completion clears (R156). -/

namespace Sys2Proof.Machine

/-- The place of a flag in the bank, in the order of R154. -/
def Flag.place : Flag → Fin 12
  | .hotPgm => 0
  | .hotFloor => 1
  | .deadAirPgm => 2
  | .deadAirFloor => 3
  | .trip => 4
  | .txqDrop => 5
  | .duckFull => 6
  | .underrun => 7
  | .remoteFull => 8
  | .expired => 9
  | .unheard => 10
  | .txFault => 11

/-- Whether a flag is set. -/
def State.flag (s : State) (f : Flag) : Bool := (s.flags.get f.place).set

/-- Whether a flag's new mark is set (R154). -/
def State.newMark (s : State) (f : Flag) : Bool := (s.flags.get f.place).fresh

/-- An owner latches a flag: the flag and its new mark are set (R154). -/
def State.latch (s : State) (f : Flag) : State :=
  { s with flags := s.flags.set f.place { set := true, fresh := true } }

/-- Latch a flag where a condition holds. -/
def State.latchIf (s : State) (c : Bool) (f : Flag) : State := if c then s.latch f else s

/-- The HOT flag of a pair (R120). -/
def hotFlag : OutPair → Flag
  | .pgm => .hotPgm
  | .floor => .hotFloor

/-- The DEAD_AIR flag of a pair (R122). -/
def deadAirFlag : OutPair → Flag
  | .pgm => .deadAirPgm
  | .floor => .deadAirFloor

/-- Formation clears every new mark (R155). -/
def clearMarks (t : Table 12 Latch) : Table 12 Latch := t.map fun l => { l with fresh := false }

/-- The code of a protection state in a STATUS (10.4). -/
def Protection.code : Protection → Nat
  | .normal => 0
  | .tripped => 1
  | .locked => 2

def bit (b : Bool) (place : Nat) : Nat := if b then 2 ^ place else 0

/-- Byte 0 of the payload (10.4). -/
def statusByte0 (s : State) : Byte :=
  BitVec.ofNat 8 (bit s.fresh 7 + bit s.isRun 6 + bit s.configDefaults 5 + s.voicesInUse)

/-- Byte 1 of the payload. -/
def statusByte1 (s : State) : Byte :=
  BitVec.ofNat 8 (s.pendingRequests * 16 + s.pgm.prot.code * 4 + s.pgm.attempts)

/-- Byte 2 of the payload. -/
def statusByte2 (s : State) : Byte :=
  BitVec.ofNat 8 (s.floor.prot.code * 64 + s.floor.attempts * 16 + bit (s.flag .hotPgm) 3 + bit (s.flag .hotFloor) 2 +
    bit (s.flag .deadAirPgm) 1 + bit (s.flag .deadAirFloor) 0)

/-- Byte 3 of the payload. -/
def statusByte3 (s : State) : Byte :=
  BitVec.ofNat 8 (bit (s.flag .trip) 7 + bit (s.flag .txqDrop) 6 + bit (s.flag .duckFull) 5 + bit (s.flag .underrun) 4 +
    bit (s.flag .remoteFull) 3 + bit (s.flag .expired) 2 + bit (s.flag .unheard) 1 + bit (s.flag .txFault) 0)

/-- The STATUS that STS forms from the state (R153, R155). -/
def statusPayload (s : State) : Frame :=
  .status (statusByte0 s) (statusByte1 s) (statusByte2 s) (statusByte3 s) (BitVec.ofNat 8 s.badRecords)
    (BitVec.ofNat 8 s.received)

/-- A STATUS entry whose payload has not been formed: its payload is formed when it is begun (R155). -/
def unformedStatus : Frame := .status 0 0 0 0 0 0

/-- Whether a formed payload carries a flag (10.4): the carried set of R155. -/
def carries (b2 b3 : Byte) : Flag → Bool
  | .hotPgm => b2.getLsbD 3
  | .hotFloor => b2.getLsbD 2
  | .deadAirPgm => b2.getLsbD 1
  | .deadAirFloor => b2.getLsbD 0
  | .trip => b3.getLsbD 7
  | .txqDrop => b3.getLsbD 6
  | .duckFull => b3.getLsbD 5
  | .underrun => b3.getLsbD 4
  | .remoteFull => b3.getLsbD 3
  | .expired => b3.getLsbD 2
  | .unheard => b3.getLsbD 1
  | .txFault => b3.getLsbD 0

/-- The flags in the order of their places. -/
def allFlags : List Flag :=
  [.hotPgm, .hotFloor, .deadAirPgm, .deadAirFloor, .trip, .txqDrop, .duckFull, .underrun, .remoteFull, .expired, .unheard,
    .txFault]

/-- Clear a flag that was carried and has not been latched again (R156). -/
def State.clearCarried (s : State) (b2 b3 : Byte) (f : Flag) : State :=
  if carries b2 b3 f && !s.newMark f then
    { s with flags := s.flags.set f.place { set := false, fresh := false } }
  else s

/-- STS's part of the completion of the station's own STATUS (R156, R158). -/
def State.statusDone (s : State) (b2 b3 : Byte) : State :=
  let t := inOrder (fun f u => State.clearCarried u b2 b3 f) allFlags s
  { t with fresh := false }

end Sys2Proof.Machine
end

