-- ==== Sys2Proof/Machine/Formats.lean ====
section
/-! DEFINITION. The bits of a frame on the wire, the check value, and the layouts of frame payloads and of the port frame (R118, R133 to R135, 10.1). -/

namespace Sys2Proof.Machine

/-! ## Bits and the check value -/

/-- The `n` low bits of a number, most significant first (R133). -/
def bitsOf (n x : Nat) : List Bool :=
  match n with
  | 0 => []
  | k + 1 => x.testBit k :: bitsOf k x

/-- The number whose bits are given, most significant first. -/
def ofBits (l : List Bool) : Nat := l.foldl (fun a b => a * 2 + b.toNat) 0

/-- One step of the check register (R135): shift toward the top, and combine with the pattern of places 12, 5 and 0 if the
bit shifted out differs from the frame bit. -/
def checkStep (r : BitVec 16) (b : Bool) : BitVec 16 :=
  if r.msb != b then (r <<< 1) ^^^ 0x1021#16 else r <<< 1

/-- The check value over bits in the order they are sent, from a register of all ones (R135). -/
def checkValue (bits : List Bool) : BitVec 16 := bits.foldl checkStep 0xFFFF#16

/-- The bits of bytes in ascending order, each from bit 7 down (R172). -/
def byteBits (bytes : List Byte) : List Bool := bytes.flatMap fun b => bitsOf 8 b.toNat

/-- The check value over bytes (R172). -/
def checkBytes (bytes : List Byte) : BitVec 16 := checkValue (byteBits bytes)

/-! ## Frame payloads (10.1) -/

/-- The kind code (07 7.6). -/
def Frame.kind : Frame → Nat
  | .claim _ _ => 0
  | .held _ => 1
  | .release _ => 2
  | .start _ _ _ _ _ _ => 3
  | .endFrame _ _ => 4
  | .hold _ _ => 5
  | .stop _ _ _ => 6
  | .fire _ _ => 7
  | .arm _ => 8
  | .disarm _ => 9
  | .ask _ => 10
  | .status _ _ _ _ _ _ => 11

/-- The payload bytes; a bit assigned to no field is sent as 0 (R171). -/
def Frame.payload : Frame → List Byte
  | .claim g c => [g, c]
  | .held g => [g]
  | .release g => [g]
  | .start g c t e d h => [g, c, t, e.zeroExtend 8, d, h]
  | .endFrame t g => [t, g]
  | .hold t h => [t, h]
  | .stop tg c f => [tg, c, f.zeroExtend 8]
  | .fire tg c => [tg, c]
  | .arm g => [g.extractLsb' 8 8, g.extractLsb' 0 8]
  | .disarm g => [g.extractLsb' 8 8, g.extractLsb' 0 8]
  | .ask tg => [tg]
  | .status b0 b1 b2 b3 b4 b5 => [b0, b1, b2, b3, b4, b5]

/-- The frame that a kind and a payload spell: none for kinds 12 to 31, and for a length that is not the kind's (R143).
Bits assigned to no field are not examined (R171). -/
def Frame.ofPayload (kind : Nat) (bytes : List Byte) : Option Frame :=
  match kind, bytes with
  | 0, [g, c] => some (.claim g c)
  | 1, [g] => some (.held g)
  | 2, [g] => some (.release g)
  | 3, [g, c, t, e, d, h] => some (.start g c t (e.setWidth 4) d h)
  | 4, [t, g] => some (.endFrame t g)
  | 5, [t, h] => some (.hold t h)
  | 6, [tg, c, f] => some (.stop tg c (f.setWidth 3))
  | 7, [tg, c] => some (.fire tg c)
  | 8, [hi, lo] => some (.arm (hi ++ lo))
  | 9, [hi, lo] => some (.disarm (hi ++ lo))
  | 10, [tg] => some (.ask tg)
  | 11, [b0, b1, b2, b3, b4, b5] => some (.status b0 b1 b2 b3 b4 b5)
  | _, _ => none

/-! ## The frame on the wire (R133 to R136) -/

/-- A frame as its fields stand on the wire, whatever its kind. -/
structure RawFrame where
  kind : BitVec 5
  key : BitVec 5
  source : BitVec 5
  payload : List Byte
  deriving DecidableEq, Repr

/-- The content bits that the check value is taken over: arbitration field, length, payload (R135). -/
def RawFrame.headBits (f : RawFrame) : List Bool :=
  bitsOf 5 f.kind.toNat ++ bitsOf 5 f.key.toNat ++ bitsOf 5 f.source.toNat ++ bitsOf 3 f.payload.length ++ byteBits f.payload

/-- All content bits: the head bits, then the check value. -/
def RawFrame.contentBits (f : RawFrame) : List Bool :=
  f.headBits ++ bitsOf 16 (checkValue f.headBits).toNat

/-- A sync bit after every eighth content bit, of the level opposite to the bit before it (R134). `n` counts the content
bits since the last sync bit. -/
def withSync : Nat → List Bool → List Bool
  | _, [] => []
  | n, b :: rest => if n = 7 then b :: (!b) :: withSync 0 rest else b :: withSync (n + 1) rest

/-- The bits the sender drives: start bit, content with sync bits, echo slot left recessive, end bit (R133, R136). -/
def RawFrame.wireBits (f : RawFrame) : List Bool :=
  false :: withSync 0 f.contentBits ++ [true, true]

/-- What a receiver makes of the bits after a start bit (R134 to R136): a frame it accepts; a frame it discards, `answered` where it
had accepted it at the last check bit and only the end bit was read dominant; or a frame that has not ended. -/
inductive Reception where
  | accepted (f : RawFrame)
  | discarded (answered : Bool)
  | unfinished
  deriving DecidableEq, Repr

/-- Content bits with their sync bits removed, and the bits that follow; or why there are none (R134). -/
inductive Stripped where
  | content (bits rest : List Bool)
  | wrongSync
  | short
  deriving DecidableEq, Repr

/-- A content bit ahead of the others. -/
def Stripped.cons (b : Bool) : Stripped → Stripped
  | .content bits rest => .content (b :: bits) rest
  | .wrongSync => .wrongSync
  | .short => .short

/-- The content bits of a run with its sync bits removed, as many as `want`, and the bits that follow: a sync bit of the wrong level
ends it, and so does the end of the bits (R134). `n` counts the content bits since the last sync bit. -/
def stripSync : Nat → Nat → List Bool → Stripped
  | _, 0, rest => .content [] rest
  | _, _ + 1, [] => .short
  | n, want + 1, b :: rest =>
    if n = 7 then
      match rest with
      | [] => .short
      | sync :: more => if sync = !b then (stripSync 0 want more).cons b else .wrongSync
    else (stripSync (n + 1) want rest).cons b

/-- Bytes of a run of bits, each from bit 7 down; `n` bytes. -/
def bytesOf : Nat → List Bool → List Byte
  | 0, _ => []
  | n + 1, l => BitVec.ofNat 8 (ofBits (l.take 8)) :: bytesOf n (l.drop 8)

/-- The fields that the content bits before the check value spell (R133); `len` is the number of payload bytes. -/
def RawFrame.ofHead (len : Nat) (head : List Bool) : RawFrame where
  kind := BitVec.ofNat 5 (ofBits (head.take 5))
  key := BitVec.ofNat 5 (ofBits ((head.drop 5).take 5))
  source := BitVec.ofNat 5 (ofBits ((head.drop 10).take 5))
  payload := bytesOf len (head.drop 18)

/-- What a receiver makes of the levels it read after a start bit, echo slot and end bit among them: a frame is discarded
for a sync bit of the wrong level, a length value of 7, a check that does not agree, or an end bit read dominant
(R133 to R136). What follows the end bit is no part of the frame. -/
def receive (bits : List Bool) : Reception :=
  match stripSync 0 18 bits with
  | .wrongSync => .discarded false
  | .short => .unfinished
  | .content opening _ =>
    let len := ofBits ((opening.drop 15).take 3)
    if len = 7 then .discarded false
    else
      match stripSync 0 (34 + 8 * len) bits with
      | .wrongSync => .discarded false
      | .short => .unfinished
      | .content content rest =>
        let head := content.take (18 + 8 * len)
        let good := checkValue head == BitVec.ofNat 16 (ofBits (content.drop (18 + 8 * len)))
        match rest with
        | _ :: true :: _ => if good then .accepted (RawFrame.ofHead len head) else .discarded false
        | _ :: false :: _ => .discarded good
        | _ => .unfinished

/-- The error flag: 8 dominant bit times (R139). -/
def errorFlagBits : List Bool := List.replicate 8 false

/-- The level the station drives at the n-th bit time from the first of its bits, true for recessive: once its bits have run out it
has released the wire (R132, R139). -/
def Transmitter.level (n : Nat) : Transmitter → Bool
  | .idle => true
  | .sending bits => bits.getD n true
  | .errorFlag bits => bits.getD n true

/-- The number an arbitration field is: of frames begun together the smallest goes on (R137). -/
def RawFrame.arbitration (f : RawFrame) : Nat := ofBits (f.headBits.take 15)

/-- The raw frame of an entry of the queue of station `number`. -/
def Entry.raw (number : Nat) (e : Entry) : RawFrame where
  kind := BitVec.ofNat 5 e.frame.kind
  key := BitVec.ofNat 5 e.key
  source := BitVec.ofNat 5 number
  payload := e.frame.payload

/-! ## The serial audio port (R118) -/

/-- The 24-bit slot and the 8 bits after it of one channel: the 16-bit sample in the upper 16 bits, the rest 0. -/
def channelBits (x : Int) : List Bool := bitsOf 32 ((BitVec.ofInt 16 x).toNat * 65536)

/-- The 64 bits of a port frame, left channel first (R118). -/
def portBits (frame : Int × Int) : List Bool := channelBits frame.1 ++ channelBits frame.2

/-- The word clock over the 64 bit times of a port frame (R118): low in the left half, high in the right. -/
def wordClockBits : List Bool := List.replicate 32 false ++ List.replicate 32 true

/-- What a serial audio port drives during one frame, bit time by bit time: the data line and the word clock (R118). -/
def portLines (frame : Int × Int) : List (Bool × Bool) := (portBits frame).zip wordClockBits

/-! ## Durations (R17, R133) -/

/-- Bit times of a frame of n payload bytes, from start bit to end bit (R133). -/
def frameBitTimes (n : Nat) : Nat := 41 + 9 * n

/-- Twelfths of a microsecond that one read of `bytes` bytes takes: 4 µs of setup, then 12 or 3 bytes a microsecond (R17). -/
def readTwelfths (wide : Bool) (bytes : Nat) : Nat := 48 + (if wide then 1 else 4) * bytes

end Sys2Proof.Machine
end

