-- ==== Sys2Proof/WellFormed.lean ====
section
/-! DEFINITION. Which commands carry operands of a length their event can have. -/

namespace Sys2Proof

/-- Bytes of the configuration block (R161). -/
def configBytes : Nat := 128
/-- Bytes of the directory area (R163). -/
def directoryBytes : Nat := 8160
/-- The most bytes one read of a chunk can bring: 256 STEREO frames (R16). -/
def readBytesMax : Nat := 1024
/-- The most payload bytes a frame can have (R133). -/
def payloadMax : Nat := 6
/-- The most bits a frame of the longest payload has after its start bit (R133). -/
def frameBitsMax : Nat := 94

/-- The operand lengths the events of the part can have. -/
def Instr.wellFormed : Instr → Bool
  | .configReadEnd bytes => bytes.length == configBytes
  | .directoryReadEnd bytes => bytes.length == directoryBytes
  | .readEnd bytes => bytes.length ≤ readBytesMax && bytes.length % 2 == 0 && bytes.length != 0
  | .rxUnappliedFrame _ _ payload => payload.length ≤ payloadMax
  | .rxOwnNumberFrame _ payload => payload.length ≤ payloadMax
  | .rxDiscard bits => bits.length ≤ frameBitsMax
  | .rxFreshStatusOwnNumber b0 _ _ _ _ _ => b0.getLsbD 7
  | .reset => true
  | .sampleInstant => true
  | .endOfData _ => true
  | .fadeStep _ => true
  | .duckStep _ => true
  | .blockBoundary _ => true
  | .playPress _ => true
  | .playRelease _ => true
  | .sendPress _ => true
  | .sendRelease _ => true
  | .requestExpiry _ => true
  | .deadAir _ => true
  | .overloadTrip _ => true
  | .recoveryWaitEnd _ => true
  | .attemptsForgiven _ => true
  | .joinWaitEnd => true
  | .holdUnitBoundary => true
  | .penaltyEnd _ => true
  | .duckEntryExpiry _ _ => true
  | .busIdle => true
  | .frameBegin => true
  | .arbitrationLost => true
  | .bitError => true
  | .ownClaimComplete _ => true
  | .claim _ _ _ => true
  | .ownHeldComplete _ => true
  | .held _ _ => true
  | .release _ _ => true
  | .ownStartComplete _ => true
  | .start _ _ _ _ _ _ _ => true
  | .ownEndComplete _ => true
  | .endFrame _ _ _ => true
  | .ownHoldComplete _ => true
  | .hold _ _ _ => true
  | .stop _ _ _ _ => true
  | .allStop _ _ _ => true
  | .fire _ _ _ => true
  | .arm _ _ => true
  | .disarm _ _ => true
  | .ask _ _ => true
  | .ownStatusComplete _ => true
  | .rxStartBit => true
  | .status _ _ _ _ _ _ _ => true

end Sys2Proof
end

