-- ==== Sys2Proof/Machine/Operands.lean ====
section
/-! DEFINITION. What a command's operands say: flash bytes as sample frames, cue records and configuration, line levels (R4, R5, R7, R24, R161, R162, R172, 10.2, 10.3). -/

namespace Sys2Proof.Machine

/-- Byte i of a block read from flash. Every use is at an offset below the block's length. -/
def byteAt (bytes : List Byte) (i : Nat) : Byte := bytes.getD i 0

/-- The number at byte i. -/
def natAt (bytes : List Byte) (i : Nat) : Nat := (byteAt bytes i).toNat

/-- A number of `n` bytes from byte i, low byte first (chapter 10). -/
def littleAt (bytes : List Byte) (i : Nat) : Nat → Nat
  | 0 => 0
  | n + 1 => natAt bytes i + 256 * littleAt bytes (i + 1) n

/-- Bits hi..lo of byte i as a number. -/
def fieldAt (bytes : List Byte) (i hi lo : Nat) : Nat := natAt bytes i / 2 ^ lo % 2 ^ (hi + 1 - lo)

/-- Whether the check value of the bytes before offset `at_` agrees with the one stored there, high byte first (R172). -/
def checkAgrees (bytes : List Byte) (place : Nat) : Bool :=
  checkBytes (bytes.take place) = byteAt bytes place ++ byteAt bytes (place + 1)

/-! ## Samples (R7) -/

/-- Bytes of one sample frame. -/
def Format.bytes : Format → Nat
  | .mono => 2
  | .stereo => 4

/-- The signed 16-bit sample of two bytes, low byte first. -/
def sampleOf (lo hi : Byte) : Int := (hi ++ lo).toInt

/-- The sample frames of a read; the bytes of a broken last frame, which no read has, are no frame. -/
def framesOf : Format → List Byte → List SampleFrame
  | .mono, lo :: hi :: rest => .mono (sampleOf lo hi) :: framesOf .mono rest
  | .stereo, l0 :: l1 :: r0 :: r1 :: rest => .stereo (sampleOf l0 l1) (sampleOf r0 r1) :: framesOf .stereo rest
  | .mono, _ => []
  | .stereo, _ => []

/-! ## Cue records (10.2) -/

/-- The kind byte's play mode with the loop points of the record; none for code 3. -/
def decodeMode (b : List Byte) : Option PlayMode :=
  match fieldAt b 0 2 1 with
  | 0 => some .oneShot
  | 1 => some (.loop (littleAt b 7 3 % 2 ^ 23) (littleAt b 10 3 % 2 ^ 23))
  | 2 => some (.loopTail (littleAt b 7 3 % 2 ^ 23) (littleAt b 10 3 % 2 ^ 23))
  | _ => none

def decodeRoute (b : List Byte) : Option Route :=
  match fieldAt b 0 4 3 with
  | 0 => some .pgm
  | 1 => some .floor
  | 2 => some .both
  | _ => none

def decodeRetrigger (b : List Byte) : Retrigger :=
  match fieldAt b 0 6 5 with
  | 0 => .restart
  | 1 => .ignore
  | 2 => .toggle
  | _ => .layer

/-- The fields of a 32-byte record; none where a play mode or a route names no value. -/
def decodeFields (b : List Byte) : Option Cue :=
  match decodeMode b, decodeRoute b with
  | some m, some r =>
    some
      { start := littleAt b 1 3
        length := littleAt b 4 3 % 2 ^ 23
        format := if fieldAt b 0 0 0 = 0 then .mono else .stereo
        mode := m
        level := natAt b 13
        route := r
        group := natAt b 14
        priority := natAt b 15
        retrigger := decodeRetrigger b
        fadeIn := fieldAt b 16 3 0
        fadeOut := fieldAt b 16 7 4
        emit := BitVec.ofNat 4 (fieldAt b 17 3 0)
        depth := natAt b 18
        listen := BitVec.ofNat 4 (fieldAt b 17 7 4) }
  | _, _ => none

/-- The loop points are in order (R5). -/
def PlayMode.inOrder (m : PlayMode) (length : Nat) : Bool :=
  match m with
  | .oneShot => true
  | .loop a b => decide (a < b) && decide (b ≤ length)
  | .loopTail a b => decide (a < b) && decide (b ≤ length)

/-- None of the conditions of R5 that make a record BAD holds. -/
def Cue.consistent (q : Cue) : Bool :=
  decide (q.length ≠ 0) && decide (q.level ≠ 0) && decide (q.start % 2 = 0) &&
    decide (q.start + q.length * q.format.bytes ≤ Config.flashBytes) && q.mode.inOrder q.length &&
    decide (q.fadeIn ≤ 7) && decide (q.fadeOut ≤ 7) && decide (q.group ≤ 15) && decide (q.priority ≤ 7)

/-- The three tests of R4, in their order. -/
def classifyRecord (b : List Byte) : CueRecord :=
  if natAt b 0 = 255 then .absent
  else if checkAgrees b 30 then
    match decodeFields b with
    | some q => if q.consistent then .present q else .bad
    | none => .bad
  else .bad

/-- The slots of the directory area, 32 bytes each (R163). -/
def slotsOf : Nat → List Byte → List (List Byte)
  | 0, _ => []
  | n + 1, b => b.take 32 :: slotsOf n (b.drop 32)

theorem slotsOf_length (n : Nat) (b : List Byte) : (slotsOf n b).length = n := by
  induction n generalizing b with
  | zero => rfl
  | succ n ih => simp [slotsOf, ih]

/-- The cue table that a directory read gives (R163). -/
def directoryOf (bytes : List Byte) : Table 255 CueRecord :=
  Table.ofList ((slotsOf 255 bytes).map classifyRecord) (by rw [List.length_map, slotsOf_length])

/-- The BAD record count (R6). -/
def badCount (t : Table 255 CueRecord) : Nat := (t.items.filter fun r => decide (r = .bad)).length

/-! ## The configuration block (10.3) -/

/-- A decoded field, and whether its code named no value so that its default was taken (R161, R172). -/
abbrev Field (α : Type) := α × Bool

def good {α : Type} (a : α) : Field α := (a, false)

def defaulted {α : Type} (a : α) : Field α := (a, true)

def decodeDebounce (b : List Byte) : Field Nat :=
  if natAt b 2 = 0 then good 1 else if natAt b 2 ≤ 16 then good (natAt b 2) else defaulted 5

def decodeNumber (b : List Byte) : Nat := if fieldAt b 0 4 0 = 31 then 0 else fieldAt b 0 4 0

def decodeRecovery (b : List Byte) : Recovery :=
  match fieldAt b 14 1 0 with
  | 0 => .off
  | 1 => .short
  | 2 => .long
  | _ => .endless

/-- The group record at byte 0Fh + g. -/
def decodeGroup (b : List Byte) (g : Nat) : Field GroupConfig :=
  let place := 15 + g
  let rest (m : GroupMode) : GroupConfig :=
    { mode := m
      manual := fieldAt b place 2 2 = 1
      chokeFade := fieldAt b place 5 3
      armedAtStart := fieldAt b place 6 6 = 1 }
  match fieldAt b place 1 0 with
  | 0 => good (rest .none)
  | 1 => good (rest .lastWins)
  | 2 => good (rest .firstWins)
  | _ => defaulted (rest .none)

/-- The action of line n from its six bytes; action codes 6 and 7 take the default PLAY cue n (R172). -/
def decodeAction (b : List Byte) (n : Nat) : Field LineAction :=
  let p := 32 + 6 * n
  match fieldAt b p 2 0 with
  | 0 => good (.play (byteAt b (p + 2)))
  | 1 => good (.sendFire (byteAt b (p + 2)) (byteAt b (p + 3)) (BitVec.ofNat 3 (fieldAt b (p + 4) 2 0)))
  | 2 => good (.sendStop (byteAt b (p + 2)) (byteAt b (p + 3)) (BitVec.ofNat 3 (fieldAt b (p + 4) 2 0)))
  | 3 => good (.sendArm (byteAt b (p + 2) ++ byteAt b (p + 3)))
  | 4 => good (.sendDisarm (byteAt b (p + 2) ++ byteAt b (p + 3)))
  | 5 => good (.sendRelease (byteAt b (p + 2)))
  | _ => defaulted (.play (BitVec.ofNat 8 n))

def decodeEarly (b : List Byte) (n : Nat) : Field EarlyPolicy :=
  match fieldAt b (32 + 6 * n) 6 5 with
  | 0 => good .discard
  | 1 => good .latch
  | 2 => good .penalty
  | _ => defaulted .discard

/-- The tally mode; GROUP 0 is taken as OFF (R46). -/
def decodeTally (b : List Byte) (n : Nat) : Tally :=
  let p := 33 + 6 * n
  match fieldAt b p 1 0 with
  | 0 => .voice
  | 1 => .holder
  | 2 => if fieldAt b p 7 4 = 0 then .off else .group (fieldAt b p 7 4)
  | _ => .off

def decodeLine (b : List Byte) (n : Nat) : Field LineConfig :=
  ({ action := (decodeAction b n).1
     gate := fieldAt b (32 + 6 * n) 3 3 = 1
     activeHigh := fieldAt b (32 + 6 * n) 4 4 = 1
     early := (decodeEarly b n).1
     tally := decodeTally b n },
    (decodeAction b n).2 || (decodeEarly b n).2)

/-- The configuration of a block whose check agrees, with the clamps of R162. -/
def decodeConfig (b : List Byte) : StationConfig where
  number := decodeNumber b
  wide := fieldAt b 1 0 0 = 0
  rotating := fieldAt b 1 1 1 = 1
  debounce := (decodeDebounce b).1
  expiry := natAt b 3
  penaltyTime := natAt b 4
  attack := fieldAt b 5 2 0
  release := fieldAt b 5 6 4
  trimPgm := natAt b 6
  trimFloor := natAt b 7
  hot := min (littleAt b 8 2) 32768
  silence := min (littleAt b 10 2) 32768
  deadAirTime := max (natAt b 12) 1
  overloadK := min (natAt b 13) 96
  recovery := decodeRecovery b
  lines := Table.mapIdx (fun n _ => (decodeLine b n).1) (Table.fill 8 ())
  groups := Table.mapIdx (fun i _ => (decodeGroup b (i + 1)).1) (Table.fill 15 ())

/-- Whether some field of the block held a code that names no value (R161). -/
def configFieldDefaulted (b : List Byte) : Bool :=
  (decodeDebounce b).2 || (List.range 8).any (fun n => (decodeLine b n).2) ||
    (List.range 15).any (fun i => (decodeGroup b (i + 1)).2)

/-! ## Lines (R24) -/

/-- The sampled level of a line, true for ACTIVE: the high level for ACTIVE_HIGH, the low level for ACTIVE_LOW. -/
def sampledActive (c : LineConfig) (levels : Byte) (n : Nat) : Bool := levels.getLsbD n == c.activeHigh

/-! ## Frames brought by commands -/

/-- The frame and its kind as LDR and the owners see it: none where the frame is applied to no owner (R143). -/
def frameOf (kind : BitVec 5) (payload : List Byte) : Option Frame := Frame.ofPayload kind.toNat payload

/-- Whether a frame is a STATUS with its fresh bit set (R168, 10.4). -/
def isFreshStatus : Option Frame → Bool
  | some (.status b0 _ _ _ _ _) => b0.getLsbD 7
  | _ => false

end Sys2Proof.Machine
end

