-- ==== Sys2Proof/Machine/Fetch.lean ====
section
/-! DEFINITION. FCH: play paths, what a voice needs, the arbiter, transfers and their reads (R8 to R23). -/

namespace Sys2Proof.Machine

/-! ## Play paths (R8 to R10) -/

/-- The cue index of path offset `o` on a path that loops from `last` back to `first` without end (R9). -/
def loopIndex (first last o : Nat) : Nat :=
  if o < last then o else first + (o - first) % (last - first)

/-- The cue index of path offset `o`, where `tail` holds the crossing offset once the tail has begun (R8 to R10). -/
def pathIndex (m : PlayMode) (tail : Option Nat) (o : Nat) : Nat :=
  match m, tail with
  | .oneShot, _ => o
  | .loop first last, _ => loopIndex first last o
  | .loopTail first last, none => loopIndex first last o
  | .loopTail first last, some x => if o < x then loopIndex first last o else last + (o - x)

/-- The path length; none where the path is unbounded (R8 to R10). -/
def pathLength (m : PlayMode) (length : Nat) (tail : Option Nat) : Option Nat :=
  match m, tail with
  | .oneShot, _ => some length
  | .loop _ _, _ => none
  | .loopTail _ _, none => none
  | .loopTail _ last, some x => some (x + (length - last))

/-- The loop end of a LOOP_TAIL cue. -/
def PlayMode.tailEnd : PlayMode → Option Nat
  | .loopTail _ last => some last
  | .oneShot => none
  | .loop _ _ => none

/-- Whether an offset is below a path length. -/
def belowEnd (o : Nat) : Option Nat → Bool
  | none => true
  | some n => decide (o < n)

/-- The play position of a voice (R8, R48). -/
def Voice.playPosition (w : Voice) (q : Cue) : Nat := pathIndex q.mode w.tail w.playOffset

/-- The path length of a voice that plays cue q. -/
def Voice.pathEnd (w : Voice) (q : Cue) : Option Nat := pathLength q.mode q.length w.tail

/-- The play offset of a playing voice has reached its path length (R8, R55). -/
def Voice.atEnd (w : Voice) (q : Cue) : Bool := w.state.plays && !belowEnd w.playOffset (w.pathEnd q)

/-- The crossing offset of a tail that begins now (R10). -/
def crossing (q : Cue) (w : Voice) (last : Nat) : Nat := w.playOffset + (last - w.playPosition q)

/-! ## Needing a chunk and forming a transfer (R12, R15, R16) -/

/-- Whether a voice needs a chunk (R12). -/
def Voice.needsChunk (w : Voice) (q : Cue) : Bool :=
  w.state.active && decide (w.buffer.length ≤ Config.needBelow) && belowEnd w.fetchOffset (w.pathEnd q)

/-- Frames from path offset `o` on that are contiguous in flash, at most `n`: up to the next return to loop start (R16).
At the crossing offset the path goes on without a jump (R10). -/
def runLength (m : PlayMode) (tail : Option Nat) (o n : Nat) : Nat :=
  match m, tail with
  | .oneShot, _ => n
  | .loop first last, _ => min n (last - loopIndex first last o)
  | .loopTail first last, none => min n (last - loopIndex first last o)
  | .loopTail first last, some x =>
    if x ≤ o + (last - loopIndex first last o) then n else min n (last - loopIndex first last o)

/-- The reads of a chunk of `n` frames from path offset `o`, in path order (R16). Each read has at least one frame, so
`fuel` as large as `n` is enough. -/
def readsFrom (q : Cue) (tail : Option Nat) : Nat → Nat → Nat → List Read
  | 0, _, _ => []
  | _ + 1, _, 0 => []
  | fuel + 1, o, n + 1 =>
    let k := max 1 (runLength q.mode tail o (n + 1))
    { address := q.start + pathIndex q.mode tail o * q.format.bytes, count := k, first := o, drop := false } ::
      readsFrom q tail fuel (o + k) (n + 1 - k)

/-- The frames of the next chunk of a voice (R16). -/
def chunkSize (w : Voice) (q : Cue) : Nat :=
  match w.pathEnd q with
  | none => Config.chunk
  | some n => min Config.chunk (n - w.fetchOffset)

/-- The better claim to the link: the smaller buffered count, and the lower slot where they are equal (R15). -/
def fewerFrames (s : State) (a b : Fin 8) : Fin 8 :=
  if (s.voice b).buffer.length < (s.voice a).buffer.length then b else a

/-- The voice the arbiter grants, if any needs a chunk (R15). -/
def grantee (s : State) : Option (Fin 8) :=
  match slots.filter fun v => (s.voice v).needsChunk (s.cueOf (s.voice v)) with
  | [] => none
  | v :: rest => some (rest.foldl (fewerFrames s) v)

/-- Grant the link to voice v: its transfer is formed and its fetch offset advances (R16). -/
def State.grant (s : State) (v : Fin 8) : State :=
  let w := s.voice v
  let q := s.cueOf w
  let n := chunkSize w q
  { s.setVoice v { w with fetchOffset := w.fetchOffset + n } with
    link := some
      { slot := v
        generation := w.generation
        format := q.format
        abandon := false
        reads := readsFrom q w.tail n w.fetchOffset n } }

/-- The arbiter: where the link is IDLE and a voice needs a chunk, the link is granted (R15). FCH forms no transfer in
LOADING (R14). -/
def State.arbitrate (s : State) : State :=
  if s.isLoading || s.link.isSome then s
  else
    match grantee s with
    | some v => s.grant v
    | none => s

/-! ## Marks on a transfer (R22, R23) -/

/-- Set the drop mark of every read from path offset x on. -/
def Transfer.dropFrom (t : Transfer) (x : Nat) : Transfer :=
  { t with reads := t.reads.map fun r => if x ≤ r.first then { r with drop := true } else r }

/-- The link as a tail of voice v at x leaves it (R22). A transfer of an earlier use of the slot is for another voice. -/
def State.cutTransfer (s : State) (v : Fin 8) (x : Nat) : State :=
  match s.link with
  | some t => if t.slot = v ∧ t.generation = (s.voice v).generation then { s with link := some (t.dropFrom x) } else s
  | none => s

/-- Entry into FREE abandons a transfer for the slot (R23). -/
def abandonFor (v : Fin 8) : Option Transfer → Option Transfer
  | some t => if t.slot = v then some { t with abandon := true } else some t
  | none => none

/-! ## Priming (R19, R54) -/

/-- A PRIMING voice has completed priming (R19). -/
def Voice.primed (w : Voice) (q : Cue) : Bool :=
  decide (w.state = .priming) &&
    (decide (Config.chunk ≤ w.buffer.length) || !belowEnd (w.playOffset + w.buffer.length) (w.pathEnd q))

/-- PRIMING to SOUNDING: the target becomes L, and with a fade-in index of 0 V is L at once (R54, R98). A change of rate begins V's
steps anew (log entry 7). -/
def Voice.toSounding (w : Voice) (q : Cue) : Voice :=
  { w with
    state := .sounding
    target := q.level
    vCount := 0
    vDone := false
    level := if q.fadeIn = 0 then q.level else w.level }

/-- FCH's test for priming completion of voice v (R19). -/
def State.testPrimed (s : State) (v : Fin 8) : State :=
  let w := s.voice v
  let q := s.cueOf w
  if w.primed q then s.setVoice v (w.toSounding q) else s

/-! ## The read under way (R17, R161, R163) -/

/-- A read of flash: where it begins, how many bytes it brings, and whether it takes the 4-wire link. -/
structure FlashRead where
  address : Nat
  bytes : Nat
  wide : Bool
  deriving DecidableEq, Repr

/-- The flash read that is under way, if any: in LOADING that of LDR, of the configuration block from address 0 over the 1-wire link
(R161) or of the directory area from address 4096 over the link as configured (R163); else the read of FCH's transfer (R16, R17). -/
def State.flashRead? (s : State) : Option FlashRead :=
  if s.isLoading then
    match s.load with
    | .config => some { address := 0, bytes := configBytes, wide := false }
    | .configAgain => some { address := 0, bytes := configBytes, wide := false }
    | .directory => some { address := 4096, bytes := directoryBytes, wide := s.cfg.wide }
  else
    match s.link with
    | none => none
    | some t => t.reads.head?.map fun r => { address := r.address, bytes := r.count * t.format.bytes, wide := s.cfg.wide }

/-- The read under way brings as many bytes as are given. -/
def State.readBrings (s : State) (bytes : List Byte) : Bool :=
  match s.flashRead? with
  | some r => decide (bytes.length = r.bytes)
  | none => false

/-- Twelfths of a microsecond that a read takes (R17). -/
def FlashRead.twelfths (r : FlashRead) : Nat := readTwelfths r.wide r.bytes

/-! ## Landing (R17, R18) -/

/-- The frames of a read that land: those at or after the play offset (R18). -/
def landing (w : Voice) (r : Read) (frames : List SampleFrame) : List SampleFrame :=
  frames.drop (w.playOffset - r.first)

/-- Frames of a read land in the buffer of voice v, and the voice is tested for priming completion (R18, R19). -/
def State.land (s : State) (v : Fin 8) (r : Read) (frames : List SampleFrame) : State :=
  let w := s.voice v
  (s.setVoice v { w with buffer := w.buffer ++ landing w r frames }).testPrimed v

/-- Whether the frames of a read land (R18). -/
def lands (s : State) (t : Transfer) (r : Read) : Bool :=
  !t.abandon && !r.drop && decide ((s.voice t.slot).generation = t.generation)

/-- The reads still to be begun: those with a mark set are removed (R17). -/
def remaining (t : Transfer) (rest : List Read) : List Read :=
  if t.abandon then [] else rest.dropWhile fun r => r.drop

/-- The link after a read of transfer t has ended (R17). -/
def afterRead (t : Transfer) (rest : List Read) : Option Transfer :=
  match remaining t rest with
  | [] => none
  | r :: more => some { t with reads := r :: more }

/-- READ_END (R17, R18): the read under way ends with these bytes. Its frames land or are dropped, the next read is begun or
the transfer ends, and a link that falls IDLE is granted again. With no read of FCH under way, as in LOADING, nothing ends (log
entry 4). -/
def execReadEnd (bytes : List Byte) (s : State) : Host.Outcome State Fault Refusal :=
  if s.isLoading then .next s
  else
    match s.link with
    | none => .next s
    | some t =>
      match t.reads with
      | [] => .next ({ s with link := none }.arbitrate)
      | r :: rest =>
        if !s.readBrings bytes then .refused .malformed
        else
          let s1 := if lands s t r then s.land t.slot r (framesOf t.format bytes) else s
          .next ({ s1 with link := afterRead t rest }.arbitrate)

/-! ## Beginning a tail (R10, R22) -/

/-- Set the tail flag of voice v: the path is rewritten at X, and FCH cuts back what it has read beyond X. A voice whose tail
has begun, and a voice of another play mode, is left as it is. -/
def State.beginTail (s : State) (v : Fin 8) : State :=
  let w := s.voice v
  let q := s.cueOf w
  match q.mode.tailEnd, w.tail with
  | some last, none =>
    let x := crossing q w last
    ((((s.setVoice v
      { w with
        tail := some x
        buffer := w.buffer.take (x - w.playOffset)
        fetchOffset := min w.fetchOffset x }).cutTransfer v x).testPrimed v).arbitrate)
  | _, _ => s

end Sys2Proof.Machine
end

