-- ==== Sys2Proof/Machine/Queue.lean ====
section
/-! DEFINITION. BUS: the transmit queue, its order, cancellation, coalescing, eviction and the owners' taking out (R144 to R149). -/

namespace Sys2Proof.Machine

/-- The kind code of an entry. -/
def Entry.kind (e : Entry) : Nat := e.frame.kind

def Entry.waiting (e : Entry) : Bool := !e.inFlight

/-- The entry has been dropped at its third bit error and leaves the queue when the error flag is over (R140; log entry 34). Until then it
keeps its place, counts toward the eight and is out of reach like an entry in flight. -/
def Entry.dropped (e : Entry) : Bool := e.inFlight && decide (Config.maxBusAttempts ≤ e.attempts)

/-- The entry in flight, if there is one: the frame that the station is sending (R144). -/
def State.flying (s : State) : Option Entry := s.queue.find? fun e => e.inFlight && !e.dropped

/-- Whether the station is sending a frame. -/
def State.isFlying (s : State) : Bool := s.flying.isSome

/-- A dropped frame has not left the queue. -/
def State.dropPending (s : State) : Bool := s.queue.any Entry.dropped

/-- The error flag after a third bit error is over: the dropped frame leaves the queue and the wire is released (R139, R140). -/
def State.dropOver (s : State) : State :=
  if s.dropPending then { s with queue := s.queue.filter fun e => !e.dropped, tx := .idle } else s

/-- Some entry of the queue, waiting or not, whose frame is as asked. -/
def State.hasFrame (s : State) (p : Frame → Bool) : Bool := s.queue.any fun e => p e.frame

/-- Some waiting entry whose frame is as asked. -/
def State.hasWaiting (s : State) (p : Frame → Bool) : Bool := s.queue.any fun e => e.waiting && p e.frame

/-- The entry in flight has a frame as asked. -/
def State.hasFlying (s : State) (p : Frame → Bool) : Bool := s.queue.any fun e => e.inFlight && p e.frame

/-- Take out every waiting entry whose frame is as asked; the order of the others is kept (R144, R150). -/
def State.takeOut (s : State) (p : Frame → Bool) : State :=
  { s with queue := s.queue.filter fun e => !(e.waiting && p e.frame) }

/-! ## Which frame is meant -/

def Frame.isClaimOf (g : Nat) : Frame → Bool
  | .claim group _ => group.toNat == g
  | _ => false

def Frame.isHeldOf (g : Nat) : Frame → Bool
  | .held group => group.toNat == g
  | _ => false

def Frame.isReleaseOf (g : Nat) : Frame → Bool
  | .release group => group.toNat == g
  | _ => false

def Frame.isStartOf (tag : Nat) : Frame → Bool
  | .start _ _ t _ _ _ => t.toNat == tag
  | _ => false

def Frame.isEndOf (tag : Nat) : Frame → Bool
  | .endFrame t _ => t.toNat == tag
  | _ => false

def Frame.isHoldOf (tag : Nat) : Frame → Bool
  | .hold t _ => t.toNat == tag
  | _ => false

def Frame.isStatus : Frame → Bool
  | .status _ _ _ _ _ _ => true
  | _ => false

/-! ## Placing -/

/-- Put an entry at the place its kind and its coming last give it (R144). -/
def placeEntry (e : Entry) : List Entry → List Entry
  | [] => [e]
  | x :: rest => if e.kind < x.kind then e :: x :: rest else x :: placeEntry e rest

/-- The entry that a new frame of kind k evicts: the youngest waiting entry of the largest kind code present, where that is
larger than k (R148). In the queue's order it is the last waiting entry. -/
def victimOf (k : Nat) (q : List Entry) : Option Entry :=
  match (q.filter fun e => e.waiting).getLast? with
  | some e => if k < e.kind then some e else none
  | none => none

/-- The queue without its last waiting entry. -/
def dropLastWaiting (q : List Entry) : List Entry :=
  match q.reverse.findIdx? fun e => e.waiting with
  | some i => (q.reverse.eraseIdx i).reverse
  | none => q

/-- What became of an offered frame (R145). -/
inductive Offered where
  | placed
  | merged
  | cancelled
  | lost
  deriving DecidableEq, Repr

/-- The owner's part in the loss of a START by eviction or drop: a voice QUEUED under its tag becomes LOCAL (R65, R149). -/
def State.loseStart (s : State) (tag : Nat) : State :=
  let v := tagSlot tag
  let w := s.voice v
  if s.tag v = tag ∧ w.announce = .queued then s.setVoice v { w with announce := .localOnly } else s

/-- The owners' parts in the eviction of a waiting entry (R149): only a START has one. -/
def State.evicted (s : State) : Frame → State
  | .start _ _ t _ _ _ => s.loseStart t.toNat
  | .claim _ _ => s
  | .held _ => s
  | .release _ => s
  | .endFrame _ _ => s
  | .hold _ _ => s
  | .stop _ _ _ => s
  | .fire _ _ => s
  | .arm _ => s
  | .disarm _ => s
  | .ask _ => s
  | .status _ _ _ _ _ _ => s

/-- Room, eviction or drop (R145 steps 3 and 4, R148). -/
def State.place (s : State) (f : Frame) (key : Nat) : State × Offered :=
  let e : Entry := { frame := f, key := key, attempts := 0, inFlight := false }
  if s.queue.length < Config.queueSize then ({ s with queue := placeEntry e s.queue }, .placed)
  else
    match victimOf f.kind s.queue with
    | some x =>
      ((({ s with queue := placeEntry e (dropLastWaiting s.queue) }.latch .txqDrop).evicted x.frame), .placed)
    | none => (s.latch .txqDrop, .lost)

/-- Replace the hold of waiting entries for a tag (R147). -/
def setHold (tag : Nat) (h : Byte) (e : Entry) : Entry :=
  if e.inFlight then e
  else
    match e.frame with
    | .hold t _ => if t.toNat = tag then { e with frame := .hold t h } else e
    | .start g c t em d _ => if t.toNat = tag then { e with frame := .start g c t em d h } else e
    | _ => e

/-- An owner offers a frame (R145): cancellation (R146), coalescing (R147), room, or a full queue (R148). -/
def State.offerKey (s : State) (f : Frame) (key : Nat) : State × Offered :=
  match f with
  | .endFrame t _ =>
    if s.hasWaiting (Frame.isStartOf t.toNat) then (s.takeOut (Frame.isStartOf t.toNat), .cancelled) else s.place f key
  | .start _ _ t _ _ _ =>
    if s.hasFlying (Frame.isEndOf t.toNat) then (s, .lost)
    else (s.takeOut (Frame.isEndOf t.toNat)).place f key
  | .hold t h =>
    if s.hasWaiting (fun x => x.isHoldOf t.toNat || x.isStartOf t.toNat) then
      ({ s with queue := s.queue.map (setHold t.toNat h) }, .merged)
    else s.place f key
  | .status _ _ _ _ _ _ => if s.hasFrame Frame.isStatus then (s, .merged) else s.place f key
  | .claim _ _ => s.place f key
  | .held _ => s.place f key
  | .release _ => s.place f key
  | .stop _ _ _ => s.place f key
  | .fire _ _ => s.place f key
  | .arm _ => s.place f key
  | .disarm _ => s.place f key
  | .ask _ => s.place f key

/-- An owner offers a frame of any kind but CLAIM, whose key is the station's number (R133), and has no part in its loss. -/
def State.offer (s : State) (f : Frame) : State := (s.offerKey f s.cfg.number).1

/-- STS or LDR offers a STATUS (R147, R152, R165, R168). -/
def State.offerStatus (s : State) : State := s.offer unformedStatus

end Sys2Proof.Machine
end

