-- ==== Sys2Proof/Machine/Voices.lean ====
section
/-! DEFINITION. VCE and GRP on one voice: entry into FREE, releases, withdrawal, announcing and the take (R49 to R68, R88). -/

namespace Sys2Proof.Machine

/-! ## Announcing (R64 to R66) -/

/-- The emit set is not empty. -/
def Cue.emits (q : Cue) : Bool := q.emit != 0

/-- The hold of a START (R64); the play position is 0 when it is queued. -/
def startHold (q : Cue) : Nat :=
  match q.mode with
  | .oneShot => min 255 (ceilDiv q.length Config.samplesPerHoldUnit)
  | .loop _ _ => 255
  | .loopTail _ _ => 255

/-- The START of voice v with cue number c (R64). -/
def startFrame (q : Cue) (c tag : Nat) : Frame :=
  .start (BitVec.ofNat 8 q.group) (BitVec.ofNat 8 c) (BitVec.ofNat 8 tag) q.emit (BitVec.ofNat 8 q.depth)
    (BitVec.ofNat 8 (startHold q))

/-- The decision to announce voice v (R64): in RUN, for a cue with a group or an emit set, the announce state becomes QUEUED
and a START is offered; a START that is not placed leaves the voice LOCAL (R65, R146). -/
def State.decideAnnounce (s : State) (v : Fin 8) : State :=
  let w := s.voice v
  let q := s.cueOf w
  if s.isRun && (decide (q.group ≠ 0) || q.emits) then
    match (s.setVoice v { w with announce := .queued }).offerKey (startFrame q w.cue (s.tag v)) s.cfg.number with
    | (t, .lost) => t.loseStart (s.tag v)
    | (t, .placed) => t
    | (t, .merged) => t
    | (t, .cancelled) => t
  else s

def endFrameOf (tag group : Nat) : Frame := .endFrame (BitVec.ofNat 8 tag) (BitVec.ofNat 8 group)

/-- The announce state of a voice that enters FREE is settled (R66, R69): `tag` and `group` are those of the voice. An END for a tag
whose START is in flight is not offered but owed, whatever the announce state (R146). -/
def State.settleAnnounce (s : State) (a : Announce) (tag group : Nat) : State :=
  match a with
  | .localOnly => s
  | .announced _ =>
    if !s.isRun then s
    else if s.hasFlying (Frame.isStartOf tag) then { s with owedEnd := some { tag := tag, group := group } }
    else s.offer (endFrameOf tag group)
  | .queued =>
    if s.hasFlying (Frame.isStartOf tag) then { s with owedEnd := some { tag := tag, group := group } }
    else if s.hasWaiting (Frame.isStartOf tag) then s.offer (endFrameOf tag group)
    else s

/-! ## Groups that a voice holds (R85, R88, R90) -/

/-- GRP queues a RELEASE for group g while in RUN, unless one from this station is already in the queue (R73, R90). -/
def State.queueRelease (s : State) (g : Nat) : State :=
  if s.isRun && !s.hasFrame (Frame.isReleaseOf g) then s.offer (.release (BitVec.ofNat 8 g)) else s

/-- A voice that was slot v with the given tag has entered FREE: where it is the holding voice of the group at place i, the
holding voice becomes none, and under hold AUTO a RELEASE is queued (R85, R88). -/
def State.dropHolding (s : State) (v : Fin 8) (tag : Nat) (i : Fin 15) : State :=
  let g := s.groups.get i
  if g.holdingVoice = some (v, tag) then
    let t := s.setGroup i { g with holdingVoice := none }
    if (s.cfg.groups.get i).manual then t else t.queueRelease (groupNumber i)
  else s

/-! ## Entry into FREE (R63) -/

/-- The line whose owed-release mark may stand for a voice: a CLAIMING voice's source line. -/
def Line.clearOwed (l : Line) : Line := { l with owedRelease := false }

/-- A CLAIMING voice that becomes FREE takes its line's owed-release mark with it (R30, R63). -/
def State.clearOwedFor (s : State) (w : Voice) : State :=
  match w.state, w.source with
  | .claiming, .line n => s.setLine n (s.line n).clearOwed
  | _, _ => s

/-- Entry of voice v into FREE (R63), all but the serving pass, which is owed (`passesDue`; R36). That the announce state is settled, and
its END offered, before GRP offers its RELEASE is log entry 38. -/
def State.freeVoice (s : State) (v : Fin 8) : State :=
  let w := s.voice v
  let q := s.cueOf w
  let tag := s.tag v
  let s1 :=
    { (s.clearOwedFor w).setVoice v (Voice.freed w.generation) with
      releasing := s.releasing.filter fun x => decide (x ≠ v)
      link := abandonFor v s.link }
  let s2 := s1.settleAnnounce w.announce tag q.group
  let s3 := inOrder (fun i t => State.dropHolding t v tag i) groupPlaces s2
  { s3 with passesDue := s3.passesDue + 1 }

/-! ## Claims (R53, R84) -/

/-- The claimed request of voice v takes an outcome (R45). -/
def State.settleClaim (s : State) (v : Fin 8) (o : RequestOutcome) : State :=
  let w := s.voice v
  match w.claimed with
  | .openClaim => s.recordOutcome w.source o
  | .none => s
  | .played => s

/-- A withdrawal (R53): the CLAIM is taken out, the claimed request takes its outcome, and the voice enters FREE. -/
def State.withdraw (s : State) (v : Fin 8) (o : RequestOutcome) : State :=
  let g := (s.cueOf (s.voice v)).group
  ((s.takeOut (Frame.isClaimOf g)).settleClaim v o).freeVoice v

/-- The CLAIM of a CLAIMING voice is a waiting entry, so that a withdrawal reaches it (R84). -/
def State.claimQueued (s : State) (v : Fin 8) : Bool :=
  decide ((s.voice v).state = .claiming) && s.hasWaiting (Frame.isClaimOf (s.cueOf (s.voice v)).group)

/-- The CLAIM of a CLAIMING voice is being sent. -/
def State.claimFlying (s : State) (v : Fin 8) : Bool :=
  decide ((s.voice v).state = .claiming) && s.hasFlying (Frame.isClaimOf (s.cueOf (s.voice v)).group)

/-! ## Releases (R56 to R60) -/

/-- The rank of a release rate, fastest first (R56). -/
def Rate.rank : Rate → Nat
  | .fade 0 => 0
  | .cut => 1
  | .fade (k + 1) => k + 2
  | .tail => 9

/-- A release by fade or CUT that starts or replaces one: the target becomes 0 and the step counter restarts (R58, R59, R98). The
first instant after it counts at the new rate, whatever a FADE_STEP did before (log entry 7). -/
def Voice.runDown (w : Voice) (r : Rate) : Voice :=
  { w with state := .releasing, rate := some r, target := 0, vCount := 0, vDone := false }

/-- A release by TAIL of a SOUNDING voice: V stays (R58). -/
def Voice.runTail (w : Voice) : Voice :=
  { w with state := .releasing, rate := some .tail, target := w.level, vCount := 0, vDone := false }

/-- A voice joins the tail of the releasing list as it enters RELEASING (R60). -/
def State.joinReleasing (s : State) (v : Fin 8) : State := { s with releasing := s.releasing ++ [v] }

/-- A release of voice v (R57 to R59). A FREE or CLAIMING voice takes none (R52). -/
def State.releaseVoice (s : State) (v : Fin 8) (r : Rate) : State :=
  let w := s.voice v
  match w.state, r with
  | .free, _ => s
  | .claiming, _ => s
  | .priming, .tail => s.beginTail v
  | .priming, .fade _ => s.freeVoice v
  | .priming, .cut => s.freeVoice v
  | .sounding, .tail => ((s.setVoice v w.runTail).joinReleasing v).beginTail v
  | .sounding, .fade 0 => s.freeVoice v
  | .sounding, .fade (k + 1) =>
    if w.level = 0 then s.freeVoice v else (s.setVoice v (w.runDown (.fade (k + 1)))).joinReleasing v
  | .sounding, .cut => if w.level = 0 then s.freeVoice v else (s.setVoice v (w.runDown .cut)).joinReleasing v
  | .releasing, r =>
    if r.rank < (w.rate.getD .tail).rank then
      if r.rank = 0 ∨ w.level = 0 then s.freeVoice v else s.setVoice v (w.runDown r)
    else s

/-- The release of a line or a TOGGLE: TAIL for a LOOP_TAIL cue, otherwise a fade at the cue's fade-out index (R56). -/
def Cue.lineRelease (q : Cue) : Rate :=
  match q.mode with
  | .loopTail _ _ => .tail
  | .oneShot => .fade q.fadeOut
  | .loop _ _ => .fade q.fadeOut

/-- Release voice v as its line's release would (R30, R39, R56). -/
def State.releaseAsLine (s : State) (v : Fin 8) : State :=
  s.releaseVoice v (s.cueOf (s.voice v)).lineRelease

/-- A cut is in progress (R60). -/
def State.cutInProgress (s : State) : Bool :=
  s.releasing.any fun v => decide ((s.voice v).state = .releasing) && decide ((s.voice v).rate = some .cut)

/-! ## The take (R49 to R51) -/

/-- The lowest FREE voice (R41). -/
def State.lowestFree (s : State) : Option (Fin 8) :=
  slots.find? fun v => decide ((s.voice v).state = .free)

/-- The record of a slot just taken (R51). -/
def takenVoice (generation startSeq cue : Nat) (src : Source) (claiming : Bool) : Voice :=
  { Voice.freed ((generation + 1) % 32) with
    state := if claiming then .claiming else .priming
    cue := cue
    source := src
    startSeq := startSeq
    claimed := if claiming then .openClaim else .none }

/-- The slot is taken: generation, tag, start sequence and the fields of R51. -/
def State.takeSlot (s : State) (v : Fin 8) (cue : Nat) (src : Source) (claiming : Bool) : State :=
  { s.setVoice v (takenVoice (s.voice v).generation s.startCounter cue src claiming) with
    startCounter := (s.startCounter + 1) % 65536 }

/-- The key of a CLAIM (R80): (s - w - 1) modulo 32. -/
def claimKey (number lastWinner : Nat) : Nat := (number + 63 - lastWinner) % 32

/-- The last winner of group g in the view. -/
def State.lastWinner (s : State) (g : Nat) : Nat :=
  match groupPlace g with
  | some i => (s.groups.get i).lastWinner
  | none => 0

/-- GRP queues the CLAIM of voice v in RUN (R73, R79, R80); a CLAIM dropped at a full queue withdraws the voice, REFUSED. -/
def State.queueClaim (s : State) (v : Fin 8) (g c : Nat) : State :=
  if s.isRun then
    match s.offerKey (.claim (BitVec.ofNat 8 g) (BitVec.ofNat 8 c)) (claimKey s.cfg.number (s.lastWinner g)) with
    | (t, .lost) => t.withdraw v .refused
    | (t, .placed) => t
    | (t, .merged) => t
    | (t, .cancelled) => t
  else s

/-- Voice v is taken for a request of source src for cue number c (R41, R51). For a FIRST_WINS group it enters CLAIMING and
GRP queues a CLAIM; otherwise it enters PRIMING, FCH begins to fill its buffer, the request ends PLAYED and the decision to
announce is made. -/
def State.take (s : State) (v : Fin 8) (c : Nat) (src : Source) : State :=
  let g := s.groupOf c
  if s.groupMode g = .firstWins then (s.takeSlot v c src true).queueClaim v g c
  else (((s.takeSlot v c src false).recordPlayed src).decideAnnounce v).arbitrate

/-! ## Oldest and lowest (R42, R50) -/

/-- Voice a is older than voice b (R50). -/
def older (s : State) (a b : Fin 8) : Bool :=
  let d := ((s.voice b).startSeq + 65536 - (s.voice a).startSeq) % 65536
  if d = 0 ∨ d = 32768 then decide (a.val < b.val) else decide (d < 32768)

def State.priorityOf (s : State) (v : Fin 8) : Nat := (s.cueOf (s.voice v)).priority

/-- The better victim of two (R42): the lower priority, and among equals the older. -/
def betterVictim (s : State) (a b : Fin 8) : Fin 8 :=
  if s.priorityOf b < s.priorityOf a then b
  else if s.priorityOf b = s.priorityOf a ∧ older s b a then b
  else a

/-- The victim of a steal for a request of priority p: PRIMING or SOUNDING and of strictly lower priority (R42). -/
def victim (s : State) (p : Nat) : Option (Fin 8) :=
  match slots.filter fun v => (s.voice v).state.fresh && decide (s.priorityOf v < p) with
  | [] => none
  | v :: rest => some (rest.foldl (betterVictim s) v)

end Sys2Proof.Machine
end

