-- ==== Sys2Proof/Machine/Serve.lean ====
section
/-! DEFINITION. TRG's serving: the six steps of a decision and the serving pass (R36 to R43). -/

namespace Sys2Proof.Machine

/-- What a decision does with the request: it leaves its place, or stays pending. -/
inductive Decision where
  | leaves
  | stays
  deriving DecidableEq, Repr

/-- The request ends with an outcome that moves nothing else (R36, 02 2.6). -/
def State.endRequest (s : State) (src : Source) (o : RequestOutcome) : State × Decision :=
  (s.recordOutcome src o, .leaves)

/-- The request ends EXPIRED, and EXPIRED is latched (R34, R43). -/
def State.expireRequest (s : State) (src : Source) : State :=
  (s.recordOutcome src .expired).latch .expired

/-! ## Step 6 (R41 to R43) -/

/-- The cut that a request which waits at step 6 starts, if any (R42): p is the priority of its cue. -/
def State.stealFor (s : State) (p : Nat) : State :=
  if s.cutInProgress then s
  else
    match s.releasing with
    | v :: _ => s.releaseVoice v .cut
    | [] =>
      match victim s p with
      | some v => s.releaseVoice v .cut
      | none => s

/-- Step 6: a FREE voice is taken, or the request waits, or with a pending expiry time of 0 it ends EXPIRED (R41 to R43). -/
def State.stepVoice (s : State) (c : Nat) (src : Source) : State × Decision :=
  match s.lowestFree with
  | some v => (s.take v c src, .leaves)
  | none =>
    if s.cfg.expiry = 0 then (s.expireRequest src, .leaves)
    else (s.stealFor ((s.present? c).getD Cue.blank).priority, .stays)

/-! ## Step 5 (R40) -/

/-- The station's voices of group g in a state that a test picks. -/
def State.voicesOfGroup (s : State) (g : Nat) (p : VoiceState → Bool) : List (Fin 8) :=
  slots.filter fun v => p (s.voice v).state && decide ((s.cueOf (s.voice v)).group = g)

/-- Step 5, the group step, and on to step 6 (R40). -/
def State.stepGroup (s : State) (c : Nat) (src : Source) : State × Decision :=
  let g := s.groupOf c
  if g = 0 then s.stepVoice c src
  else
    match s.groupMode g with
    | .lastWins =>
      (visit (fun v t => State.releaseVoice t v (.fade (t.chokeFade g))) (s.voicesOfGroup g VoiceState.fresh) s).stepVoice c src
    | .none =>
      if (s.voicesOfGroup g VoiceState.fresh).isEmpty then s.stepVoice c src else s.endRequest src .refused
    | .firstWins =>
      if (s.voicesOfGroup g VoiceState.occupies).isEmpty then s.stepVoice c src else s.endRequest src .refused

/-! ## Step 4 (R39) -/

/-- The station's voices of cue c in a state that a test picks. -/
def State.voicesOfCue (s : State) (c : Nat) (p : VoiceState → Bool) : List (Fin 8) :=
  slots.filter fun v => p (s.voice v).state && decide ((s.voice v).cue = c)

/-- Whether a TOGGLE releases or withdraws voice v (R39): it is PRIMING or SOUNDING, or CLAIMING with its CLAIM queued. -/
def State.toggles (s : State) (v : Fin 8) : Bool := (s.voice v).state.fresh || s.claimQueued v

/-- TOGGLE's effect on voice v. -/
def State.toggleVoice (s : State) (v : Fin 8) : State :=
  if s.claimQueued v then s.withdraw v .withdrawn else s.releaseAsLine v

/-- Step 4, the retrigger step, and on (R39). -/
def State.stepRetrigger (s : State) (c : Nat) (q : Cue) (src : Source) : State × Decision :=
  if (s.voicesOfCue c VoiceState.occupies).isEmpty then s.stepGroup c src
  else
    match q.retrigger with
    | .ignore => s.endRequest src .refused
    | .toggle =>
      let hit := (s.voicesOfCue c VoiceState.occupies).filter fun v => s.toggles v
      if hit.isEmpty then s.endRequest src .refused
      else (visit (fun v t => State.toggleVoice t v) hit s).endRequest src .playedStop
    | .restart => (visit (fun v t => State.releaseVoice t v .cut) (s.voicesOfCue c VoiceState.fresh) s).stepGroup c src
    | .layer => s.stepGroup c src

/-! ## Steps 1 to 3 (R37, R38) -/

/-- Step 3 refuses: a FIRST_WINS cue outside RUN, or under a holder (R38). -/
def State.lockedOut (s : State) (g : Nat) : Bool :=
  decide (s.groupMode g = .firstWins) && (!s.isRun || (s.holder g).isSome)

/-- The decision of one request from its first step (R37 to R42): `latched` is the latched mark of a line request. -/
def State.decideRequest (s : State) (c : Nat) (latched : Bool) (src : Source) : State × Decision :=
  match s.present? c with
  | none => s.endRequest src .refused
  | some q =>
    if !s.armed q.group then
      if latched then (s, .stays) else s.endRequest src .refused
    else if s.lockedOut q.group then s.endRequest src .refused
    else s.stepRetrigger c q src

/-! ## The pass (R36) -/

/-- The request of line n leaves the request set. -/
def State.clearRequest (s : State) (n : Fin 8) : State := s.setLine n { s.line n with request := none }

/-- Decide the request of line n, if it has one (R36). -/
def State.serveLine (s : State) (n : Fin 8) : State :=
  match (s.line n).request with
  | none => s
  | some r =>
    match s.decideRequest r.cue r.latched (.line n) with
    | (t, .leaves) => t.clearRequest n
    | (t, .stays) => t

/-- Decide the head of the remote queue, and each new head until one waits or the queue is empty (R36). -/
def State.serveRemote : Nat → State → State
  | 0, s => s
  | fuel + 1, s =>
    match s.remote with
    | [] => s
    | r :: _ =>
      match s.decideRequest r.cue false .remote with
      | (t, .leaves) => State.serveRemote fuel { t with remote := t.remote.tail }
      | (t, .stays) => t

/-- Decide what waits at one of the nine positions. -/
def State.servePlace (s : State) (p : Fin 9) : State :=
  if h : p.val < 8 then s.serveLine ⟨p.val, h⟩ else State.serveRemote Config.remoteSize s

/-- The nine positions in circular order from one (R36). -/
def placesFrom (start : Fin 9) : List (Fin 9) :=
  [start, start + 1, start + 2, start + 3, start + 4, start + 5, start + 6, start + 7, start + 8]

/-- The order of a pass, settled as it begins (R36). -/
def State.servingOrder (s : State) : List (Fin 9) := placesFrom (if s.cfg.rotating then s.pointer else 0)

/-- One serving pass. -/
def State.servePass (s : State) : State := inOrder (fun p t => State.servePlace t p) s.servingOrder s

/-- Run the passes that are owed, each after the one before it has ended (R36). -/
def State.passesFrom : Nat → State → State
  | 0, s => s
  | fuel + 1, s =>
    if s.passesDue = 0 then s
    else State.passesFrom fuel { s with passesDue := s.passesDue - 1 }.servePass

/-- As many passes as one event can come to (log entry 14). -/
def maxPasses : Nat := 64

/-- Run every pass owed. -/
def State.settlePasses (s : State) : State := State.passesFrom maxPasses s

/-- An event runs a serving pass of its own (R36). -/
def State.runPass (s : State) : State := { s with passesDue := s.passesDue + 1 }.settlePasses

/-- `f` on each member in an order the spec does not give, each followed by the passes that its freeing runs (R36, R63). -/
def visitServing {α : Type} (f : α → State → State) (l : List α) (s : State) : State :=
  visit (fun a t => (f a t).settlePasses) l s

end Sys2Proof.Machine
end

