-- ==== Sys2Proof/Machine/Trigger.lean ====
section
/-! DEFINITION. TRG: line conditioning, presses and releases, request expiry, penalties and tally lamps (R24 to R34, R46, R47). -/

namespace Sys2Proof.Machine

/-! ## Conditioning (R24 to R26) -/

/-- The event that an accepted level gives (R26): none for the release of an EDGE line. -/
def acceptedEvent (c : LineConfig) (active : Bool) : Option LineEvent :=
  if active then some .press else if c.gate then some .release else none

/-- One sample of a line (R24, R25). An accepted change gives its event, which the line's own commands act on (log entry 2). -/
def Line.sample (l : Line) (c : LineConfig) (debounce : Nat) (active : Bool) : Line :=
  match l.accepted with
  | none => { l with accepted := some active, changes := 0 }
  | some held =>
    if held = active then { l with changes := 0 }
    else if debounce ≤ l.changes + 1 then
      { l with accepted := some active, changes := 0, event := acceptedEvent c active }
    else { l with changes := l.changes + 1 }

/-- TRG samples every line (R24). -/
def State.sampleLines (s : State) (levels : Byte) : State :=
  inOrder
    (fun n t => State.setLine t n ((t.line n).sample (t.lineConfig n) t.cfg.debounce (sampledActive (t.lineConfig n) levels n.val)))
    slots s

/-- The line's accepted level is as an event of it says, and the event is being acted on (R26; log entry 2). -/
def Line.acting (l : Line) (active : Bool) : Line :=
  { l with accepted := l.accepted.map fun _ => active, changes := 0, event := none }

/-! ## A press on a PLAY line (R27 to R29) -/

/-- A request for cue c joins the request set and a serving pass runs (R27, R28). -/
def State.addRequest (s : State) (n : Fin 8) (c : Nat) (latched : Bool) : State :=
  (s.setLine n { s.line n with request := some { cue := c, latched := latched, age := 0 } }).runPass

/-- The line enters PENALTY with the penalty time as its count, unless that is 0 (R29). Begun at the hold-unit boundary that is due, the
penalty is not counted down by that boundary, so that it lasts the whole of its hold units (log entry 36). -/
def State.beginPenalty (s : State) (n : Fin 8) : State :=
  if s.cfg.penaltyTime = 0 then s
  else s.setLine n { s.line n with penalty := some s.cfg.penaltyTime, penaltyNew := s.tmb.unitDue }

/-- The early policy of a line whose cue's group is disarmed (R28, R29). -/
def State.earlyPress (s : State) (n : Fin 8) (c : Nat) : State :=
  match (s.lineConfig n).early with
  | .discard => s
  | .latch => s.addRequest n c true
  | .penalty => s.beginPenalty n

/-- The tests of R27, in order, for a press on a PLAY line of cue c. The line's owed-release mark is cleared (R30). -/
def State.pressPlay (s : State) (n : Fin 8) (c : Nat) : State :=
  let s := s.setLine n { (s.line n).acting true with owedRelease := false }
  if (s.line n).penalty.isSome then s
  else if (s.line n).request.isSome then s
  else if !s.armed (s.groupOf c) then s.earlyPress n c
  else s.addRequest n c false

/-! ## A release on a GATE PLAY line (R30) -/

/-- The line's request, if it has one, ends WITHDRAWN. -/
def State.withdrawRequest (s : State) (n : Fin 8) : State :=
  match (s.line n).request with
  | some _ => (s.recordOutcome (.line n) .withdrawn).clearRequest n
  | none => s

/-- Voice v is a voice of line n for cue c (R30). -/
def State.isLineVoice (s : State) (n : Fin 8) (c : Nat) (v : Fin 8) : Bool :=
  decide ((s.voice v).state ≠ .free) && decide ((s.voice v).source = .line n) && decide ((s.voice v).cue = c)

/-- The voices that a release of line n for cue c acts on (R30). -/
def State.lineVoices (s : State) (n : Fin 8) (c : Nat) : List (Fin 8) := slots.filter fun v => s.isLineVoice n c v

/-- The release of one voice of the line (R30): a CLAIMING voice is withdrawn, or its line's owed-release mark is set. -/
def State.releaseLineVoice (s : State) (n : Fin 8) (c : Nat) (v : Fin 8) : State :=
  if !s.isLineVoice n c v then s
  else if s.claimQueued v then s.withdraw v .withdrawn
  else if s.claimFlying v then s.setLine n { s.line n with owedRelease := true }
  else s.releaseAsLine v

/-- The release of a GATE PLAY line (R30): the pending request ends first, then the voices are taken, in an order the spec does not
give. R30 gives no order among its three ways; that a pass of a voice freed here never finds the line's own request is the model's
choice (log entry 32). -/
def State.releasePlay (s : State) (n : Fin 8) (c : Nat) : State :=
  let s := (s.setLine n ((s.line n).acting false)).withdrawRequest n
  visitServing (fun v t => State.releaseLineVoice t n c v) (s.lineVoices n c) s

/-! ## SEND lines (R31) -/

/-- The frame that a press on a SEND line queues. -/
def LineAction.pressFrame : LineAction → Option Frame
  | .play _ => none
  | .sendFire t c _ => some (.fire t c)
  | .sendStop t c f => some (.stop t c f)
  | .sendArm g => some (.arm g)
  | .sendDisarm g => some (.disarm g)
  | .sendRelease g => some (.release g)

/-- The frame that a release on a GATE SEND line queues: a STOP after a FIRE, otherwise nothing. -/
def LineAction.releaseFrame : LineAction → Option Frame
  | .sendFire t c f => some (.stop t c f)
  | .play _ => none
  | .sendStop _ _ _ => none
  | .sendArm _ => none
  | .sendDisarm _ => none
  | .sendRelease _ => none

/-- TRG offers a SEND line's frame in RUN; in JOINING and SILENT nothing is queued (R31). -/
def State.sendFrame (s : State) (f : Option Frame) : State :=
  match f with
  | some f => if s.isRun then s.offer f else s
  | none => s

/-! ## The four events of a line -/

/-- A press event of line n acts (R27, R31). During LOADING no line is sampled and none gives an event (R24). -/
def State.pressEvent (s : State) (n : Fin 8) : State :=
  match (s.lineConfig n).action.playCue with
  | some c => s.pressPlay n c
  | none => (s.setLine n ((s.line n).acting true)).sendFrame (s.lineConfig n).action.pressFrame

/-- A release event of line n acts (R30, R31); an EDGE line gives none (R26). -/
def State.releaseEvent (s : State) (n : Fin 8) : State :=
  match (s.lineConfig n).action.playCue with
  | some c => s.releasePlay n c
  | none => (s.setLine n ((s.line n).acting false)).sendFrame (s.lineConfig n).action.releaseFrame

/-- The line plays a cue. -/
def State.isPlayLine (s : State) (n : Fin 8) : Bool := (s.lineConfig n).action.playCue.isSome

/-- PLAY_PRESS (R27). Where the line is no PLAY line, or in LOADING, there is no such event (log entry 4). -/
def execPlayPress (n : Fin 8) (s : State) : Host.Outcome State Fault Refusal :=
  .next (if s.isLoading || !s.isPlayLine n then s else s.pressEvent n)

/-- PLAY_RELEASE (R30). -/
def execPlayRelease (n : Fin 8) (s : State) : Host.Outcome State Fault Refusal :=
  .next (if s.isLoading || !s.isPlayLine n || !(s.lineConfig n).gate then s else s.releaseEvent n)

/-- SEND_PRESS (R31). -/
def execSendPress (n : Fin 8) (s : State) : Host.Outcome State Fault Refusal :=
  .next (if s.isLoading || s.isPlayLine n then s else s.pressEvent n)

/-- SEND_RELEASE (R31). -/
def execSendRelease (n : Fin 8) (s : State) : Host.Outcome State Fault Refusal :=
  .next (if s.isLoading || s.isPlayLine n || !(s.lineConfig n).gate then s else s.releaseEvent n)

/-! ## Aging and expiry (R34) -/

/-- Whether a line request ages (R34): a latched one only while its group is armed. -/
def State.ages (s : State) (r : Request) : Bool := !r.latched || s.armed (s.groupOf r.cue)

/-- Every pending request that is aging has its age raised by one (R34). -/
def State.ageRequests (s : State) : State :=
  { s with
    lines := s.lines.map fun l =>
      { l with request := l.request.map fun r => if s.ages r then { r with age := r.age + 1 } else r }
    remote := s.remote.map fun r => { r with age := r.age + 1 } }

/-- An age has reached the pending expiry time; the time 0 has its own meaning (R34, R43). -/
def State.ripe (s : State) (age : Nat) : Bool := decide (s.cfg.expiry ≠ 0) && decide (s.cfg.expiry ≤ age)

/-- The age at which REQUEST_EXPIRY finds a request. Where the command comes before the sample instant that a block boundary falls with,
that boundary has raised the age of an aging request: the expiry is then taken before a voice that ends at the instant is freed (R34,
R44; log entry 37). -/
def State.ageAtExpiry (s : State) (aging : Bool) (age : Nat) : Nat :=
  if aging && !s.isLoading && s.tmb.boundaryNext then age + 1 else age

/-- The request of line n ends EXPIRED if its age has reached the expiry time, as `ripe` says (R34). A latched one whose age reached it
while its group was armed ends though a DISARM came first: it no longer ages, but its age has reached the time. -/
def State.expireLine (s : State) (ripe : Request → Bool) (n : Fin 8) : State :=
  match (s.line n).request with
  | some r => if ripe r then (s.expireRequest (.line n)).clearRequest n else s
  | none => s

/-- The remote entry at place i ends EXPIRED if its age has reached the expiry time, as `ripe` says; where a new entry comes to the head,
a pass runs (R34, R36). -/
def State.expireRemote (s : State) (ripe : RemoteEntry → Bool) (i : Nat) : State :=
  match s.remote[i]? with
  | some r =>
    if ripe r then
      let t := { s.expireRequest .remote with remote := s.remote.eraseIdx i }
      if i = 0 ∧ t.remote ≠ [] then t.runPass else t
    else s
  | none => s

/-- REQUEST_EXPIRY (R34). A request whose age has not reached the expiry time does not end (log entry 4). -/
def execRequestExpiry (which : RequestPlace) (s : State) : Host.Outcome State Fault Refusal :=
  .next
    (match which with
    | .line n => s.expireLine (fun r => s.ripe (s.ageAtExpiry (s.ages r) r.age)) n
    | .remote i => s.expireRemote (fun r => s.ripe (s.ageAtExpiry true r.age)) i.val)

/-! ## Penalties (R29) -/

/-- A line's penalty count falls by one at a hold-unit boundary (R29), unless the penalty began at that very boundary (log entry 36). -/
def Line.countPenalty (l : Line) : Line :=
  { l with penalty := if l.penaltyNew then l.penalty else l.penalty.map fun p => p - 1, penaltyNew := false }

/-- At a hold-unit boundary every penalty is counted down (R29). -/
def State.countPenalties (s : State) : State := { s with lines := s.lines.map Line.countPenalty }

/-- The line leaves PENALTY if its count has reached 0 (R29). -/
def State.endPenalty (s : State) (n : Fin 8) : State :=
  if (s.line n).penalty = some 0 then s.setLine n { s.line n with penalty := none } else s

/-- PENALTY_END (R29). -/
def execPenaltyEnd (n : Fin 8) (s : State) : Host.Outcome State Fault Refusal := .next (s.endPenalty n)

/-! ## Tally lamps (R46, R47) -/

/-- The condition of a tally mode on line n (R46). -/
def tallyLit (s : State) (n : Fin 8) : Tally → Bool
  | .voice => slots.any fun v => decide ((s.voice v).state ≠ .free) && decide ((s.voice v).source = .line n)
  | .holder =>
    groupPlaces.any fun i =>
      decide ((s.groups.get i).holder = some s.cfg.number) && decide ((s.groups.get i).holdingLine = some n)
  | .group g => (s.holder g).isSome
  | .off => false

/-- Whether the lamp of line n is lit (R46, R47). -/
def lampLit (s : State) (n : Fin 8) : Bool :=
  if s.isLoading then false
  else if (s.line n).penalty.isSome then decide (s.tmb.lamp < Config.blocksLit)
  else tallyLit s n (s.lineConfig n).tally

end Sys2Proof.Machine
end

