-- ==== Sys2Proof/Machine/Levels.lean ====
section
/-! DEFINITION. LVL: the voice level, the duck, the effective code and the gain, and the duck list (R93 to R109). -/

namespace Sys2Proof.Machine

/-! ## Stepping (R95, R96, R101) -/

/-- One code toward a target (R94). -/
def toward (x target : Nat) : Nat := if x < target then x + 1 else if target < x then x - 1 else x

/-- The step length of a fade index 1 to 7 (R95). -/
def stepLength (k : Nat) : Nat := 2 ^ (k + 2)

/-- The rate at which V moves, by the state of the voice (R94): none where V is not stepped. -/
def Voice.vRate (w : Voice) (q : Cue) : Option Rate :=
  match w.state with
  | .sounding => some (.fade q.fadeIn)
  | .releasing => if w.rate = some .tail then none else w.rate
  | .free => none
  | .claiming => none
  | .priming => none

/-- V and its counter after one sample instant at fade index k (R95); index 0 is at once. -/
def Voice.fadeOnce (w : Voice) (k : Nat) : Voice :=
  if w.level = w.target then { w with vCount := 0 }
  else if k = 0 then { w with level := w.target, vCount := 0 }
  else if stepLength k ≤ w.vCount + 1 then { w with level := toward w.level w.target, vCount := 0 }
  else { w with vCount := w.vCount + 1 }

/-- V after one sample instant (R95, R96). -/
def Voice.stepV (w : Voice) (q : Cue) : Voice :=
  match w.vRate q with
  | some (.fade k) => w.fadeOnce k
  | some .cut => { w with level := w.level - Config.cutStep, vCount := 0 }
  | some .tail => w
  | none => w

/-- The direction in which D must move (R101). -/
def directionOf (d target : Nat) : Direction :=
  if d < target then .rising else if target < d then .falling else .atRest

/-- The fade index of a direction: attack while rising, release while falling (R101). -/
def StationConfig.duckIndex (c : StationConfig) : Direction → Nat
  | .rising => c.attack
  | .falling => c.release
  | .atRest => 0

/-- The recorded direction and its counter when D* has been formed (R101). -/
def Voice.turn (w : Voice) (target : Nat) : Voice :=
  if directionOf w.duck target = w.dDir then w
  else { w with dDir := directionOf w.duck target, dCount := 0 }

/-- D and its counter after one sample instant toward D* (R101). The direction is AT_REST as soon as D equals D* (log entry 16). -/
def Voice.stepD (w : Voice) (c : StationConfig) (target : Nat) : Voice :=
  let w := w.turn target
  if w.duck = target then w
  else if c.duckIndex w.dDir = 0 then { w with duck := target, dDir := .atRest, dCount := 0 }
  else if stepLength (c.duckIndex w.dDir) ≤ w.dCount + 1 then
    let d := toward w.duck target
    { w with duck := d, dCount := 0, dDir := directionOf d target }
  else { w with dCount := w.dCount + 1 }

/-! ## The duck target (R99, R100) -/

/-- The depths that duck-list entries contribute to a voice that listens to `listen`. -/
def listDepths (ducks : List DuckEntry) (listen : ClassSet) : List Nat :=
  (ducks.filter fun e => meets e.classes listen).map fun e => e.depth

/-- The entries whose remaining has not reached 0: one that has is out of the list (R108; log entry 2). -/
def liveDucks (l : List DuckEntry) : List DuckEntry := l.filter fun e => decide (e.remaining ≠ 0)

/-- Voice u ducks other voices (R99): it is PRIMING, SOUNDING or RELEASING. One at end of data has ended (R55; log entry 2). -/
def State.ducksOthers (s : State) (u : Fin 8) : Bool :=
  (s.voice u).state.active && !(s.voice u).atEnd (s.cueOf (s.voice u))

/-- The depths that the station's other voices contribute to voice v. -/
def voiceDepths (s : State) (v : Fin 8) (listen : ClassSet) : List Nat :=
  (slots.filter fun u => decide (u ≠ v) && s.ducksOthers u && meets (s.cueOf (s.voice u)).emit listen).map
    fun u => (s.cueOf (s.voice u)).depth

/-- D* of voice v (R99, R100): the largest depth that applies, and 0 where there is none. -/
def duckTarget (s : State) (v : Fin 8) : Nat :=
  let listen := (s.cueOf (s.voice v)).listen
  (listDepths (liveDucks s.ducks) listen ++ voiceDepths s v listen).foldl max 0

/-! ## The steps as commands of their own (log entry 7) -/

/-- The V step counter reaches the step length of the voice's fade index at the coming sample instant (R95). -/
def Voice.fadeDue (w : Voice) (q : Cue) : Bool :=
  match w.vRate q with
  | some (.fade k) => decide (w.level ≠ w.target) && decide (k ≠ 0) && decide (stepLength k ≤ w.vCount + 1) && !w.vDone
  | _ => false

/-- FADE_STEP (R95): V moves one code toward its target, as the sample instant that completes the step would move it. -/
def execFadeStep (v : Fin 8) (s : State) : Host.Outcome State Fault Refusal :=
  let w := s.voice v
  let q := s.cueOf w
  .next (if w.fadeDue q then s.setVoice v { w.stepV q with vDone := true } else s)

/-- The D step counter reaches the step length of its index at the coming sample instant (R101). -/
def Voice.duckDue (w : Voice) (c : StationConfig) (target : Nat) : Bool :=
  let u := w.turn target
  w.state.active && decide (u.duck ≠ target) && decide (c.duckIndex u.dDir ≠ 0) &&
    decide (stepLength (c.duckIndex u.dDir) ≤ u.dCount + 1) && w.dBefore.isNone

/-- DUCK_STEP (R101): D moves one code toward D*, as the sample instant that completes the step would move it. What stood before is
kept for that instant. -/
def execDuckStep (v : Fin 8) (s : State) : Host.Outcome State Fault Refusal :=
  let w := s.voice v
  let d := duckTarget s v
  .next
    (if w.duckDue s.cfg d then
      s.setVoice v { w.stepD s.cfg d with dBefore := some { duck := w.duck, dCount := w.dCount, dDir := w.dDir } }
    else s)

/-- The coming sample instant forms D* afresh (R99) and compares D as it stood before a DUCK_STEP of that instant (R101; log
entry 7). -/
def Voice.restoreDuck (w : Voice) : Voice :=
  match w.dBefore with
  | some b => { w with duck := b.duck, dCount := b.dCount, dDir := b.dDir, dBefore := none }
  | none => w

/-! ## The effective code and the gain (R110, R111) -/

/-- E on a pair of trim m (R110). -/
def effectiveCode (level duck trim : Nat) : Nat := level - duck - (255 - trim)

/-- Whether x - 1/2 is at most the value 2^(15 - k/16) of the gain formula, where k = 255 - E (R111): 2x - 1 is at most twice
the value, compared by sixteenth powers. -/
def gainAtMost (k x : Nat) : Bool := decide ((2 * x - 1) ^ 16 * 2 ^ k ≤ 2 ^ 256)

/-- The largest x below 2^n that `p` admits, by halving; `p` admits 0 and all below any it admits. -/
def bisect (p : Nat → Bool) : Nat → Nat → Nat
  | 0, base => base
  | n + 1, base => if p (base + 2 ^ n) then bisect p n (base + 2 ^ n) else bisect p n base

/-- The gain table (R111): 32768 × 2^((E - 255)/16) rounded to the nearest integer, which is the largest x with
x - 1/2 at or below the value; G(0) is 0. -/
def gain (e : Nat) : Nat := if e = 0 then 0 else bisect (gainAtMost (255 - e)) 16 0

/-! ## The duck list (R103 to R108) -/

def DuckEntry.hasKey (source tag : Nat) (e : DuckEntry) : Bool := e.source == source && e.tag == tag

/-- A hold as it is taken: 0 as 1 (R104, R106). -/
def holdTaken (h : Nat) : Nat := max h 1

/-- The smallest depth of a list of entries. -/
def leastDepth : List DuckEntry → Nat
  | [] => 0
  | [e] => e.depth
  | e :: rest => min e.depth (leastDepth rest)

/-- A new entry meets the list (R104, R105), and whether DUCK_FULL is latched. -/
def addDuck (l : List DuckEntry) (e : DuckEntry) : List DuckEntry × Bool :=
  if l.length < Config.duckSize then (l ++ [e], false)
  else if leastDepth l < e.depth then
    ((l.eraseP fun x => x.depth == leastDepth l) ++ [e], true)
  else (l, true)

/-- A START from another station meets the duck list (R104, R105). -/
def State.duckStart (s : State) (source tag : Nat) (emit : ClassSet) (depth hold : Nat) : State :=
  let l := liveDucks s.ducks
  if emit = 0 then { s with ducks := l.eraseP (DuckEntry.hasKey source tag) }
  else if l.any (DuckEntry.hasKey source tag) then
    { s with
      ducks := l.map fun e =>
        if e.hasKey source tag then { e with classes := emit, depth := depth, remaining := holdTaken hold } else e }
  else
    let r := addDuck l { source := source, tag := tag, classes := emit, depth := depth, remaining := holdTaken hold }
    { s with ducks := r.1 }.latchIf r.2 .duckFull

/-- A HOLD from another station meets the duck list (R106). -/
def State.duckHold (s : State) (source tag hold : Nat) : State :=
  { s with
    ducks := (liveDucks s.ducks).map fun e => if e.hasKey source tag then { e with remaining := holdTaken hold } else e }

/-- An END from another station meets the duck list (R107). -/
def State.duckEnd (s : State) (source tag : Nat) : State :=
  { s with ducks := (liveDucks s.ducks).eraseP (DuckEntry.hasKey source tag) }

/-- At a hold-unit boundary the remaining of every entry falls by one (R108). -/
def State.countDucks (s : State) : State :=
  { s with ducks := s.ducks.map fun e => { e with remaining := e.remaining - 1 } }

/-- DUCK_ENTRY_EXPIRY (R108): the entry of the key is removed if its remaining has reached 0. -/
def execDuckEntryExpiry (source : BitVec 5) (tag : Byte) (s : State) : Host.Outcome State Fault Refusal :=
  .next
    { s with
      ducks := s.ducks.filter fun e => !(e.hasKey source.toNat tag.toNat && decide (e.remaining = 0)) }

end Sys2Proof.Machine
end

