-- ==== Sys2Proof/Machine/Output.lean ====
section
/-! DEFINITION. OUT: the mix, rounding and saturation, the block monitor, dead air and overload protection (R113 to R129). -/

namespace Sys2Proof.Machine

/-! ## The mix (R113 to R117) -/

/-- The left and right sample of a frame as it enters a pair (R114). -/
def SampleFrame.left : SampleFrame → Int
  | .mono x => x
  | .stereo l _ => l

def SampleFrame.right : SampleFrame → Int
  | .mono x => x
  | .stereo _ r => r

/-- What a voice brings to the mix at one instant: its cue's route, its V and D after stepping, the frame it plays (none at an
underrun), and whether it was SOUNDING as the instant began. -/
structure Playing where
  route : Route
  level : Nat
  duck : Nat
  frame : Option SampleFrame
  sounding : Bool
  deriving DecidableEq, Repr

/-- The gain of a playing voice on a pair of trim m (R110 to R112). -/
def Playing.gainOn (p : Playing) (m : Nat) : Nat := gain (effectiveCode p.level p.duck m)

/-- The product a voice adds to one channel of a pair (R113); `side` picks the sample of the frame. -/
def Playing.product (p : Playing) (pair : OutPair) (m : Nat) (side : SampleFrame → Int) : Int :=
  if p.route.has pair then
    match p.frame with
    | some f => side f * (p.gainOn m : Int)
    | none => 0
  else 0

/-- The sum of one channel (R115): exact, so the order of the voices does not matter. -/
def channelSum (ps : List Playing) (pair : OutPair) (m : Nat) (side : SampleFrame → Int) : Int :=
  (ps.map fun p => p.product pair m side).sum

/-- Rounding (R116). -/
def rounded (sum : Int) : Int := (sum + 16384) / 32768

/-- Saturation (R117). -/
def saturated (y : Int) : Int := if 32767 < y then 32767 else if y < -32768 then -32768 else y

/-- Whether saturation changes a value: one clip (R117). -/
def clipped (y : Int) : Nat := if saturated y = y then 0 else 1

/-- A pair after one sample instant (R115 to R119, R121). `measure`: the monitor has begun. -/
def Pair.instant (p : Pair) (ps : List Playing) (which : OutPair) (m : Nat) (measure : Bool) : Pair :=
  let suml := channelSum ps which m SampleFrame.left
  let sumr := channelSum ps which m SampleFrame.right
  let l := saturated (rounded suml)
  let r := saturated (rounded sumr)
  { p with
    accL := suml
    accR := sumr
    clips := if measure then p.clips + clipped (rounded suml) + clipped (rounded sumr) else p.clips
    peak := if measure then max p.peak (max l.natAbs r.natAbs) else p.peak
    allNormal := p.allNormal && decide (p.prot = .normal)
    allSounding := p.allSounding && ps.any fun q => q.sounding && q.route.has which
    port := p.portNext
    portNext := if p.prot = .normal then (l, r) else (0, 0) }

/-- A port during LOADING and reset (R118): every frame carries 0. -/
def Pair.mute (p : Pair) : Pair := { p with port := p.portNext, portNext := (0, 0) }

/-! ## The block boundary (R119 to R127) -/

/-- The ending block is quiet (R121). -/
def Pair.quiet (p : Pair) (c : StationConfig) : Bool :=
  decide (c.silence ≠ 0) && p.allNormal && p.allSounding && decide (p.peak < c.silence)

/-- The ending block is HOT (R120). -/
def Pair.isHot (p : Pair) (c : StationConfig) : Bool := decide (c.hot ≠ 0) && decide (c.hot ≤ p.peak)

/-- The ending block is overloaded (R124). -/
def Pair.overloaded (p : Pair) (c : StationConfig) : Bool := decide (c.overloadK ≠ 0) && decide (c.overloadK ≤ p.clips)

/-- The counts of protection at a boundary: a NORMAL pair counts its NORMAL time and is judged for overload (R124, R127);
a TRIPPED one counts its recovery wait, but not under OFF (R126). -/
def Pair.countProtection (p : Pair) (c : StationConfig) : Pair :=
  match p.prot with
  | .normal =>
    { p with
      normalTime := min Config.forgiveTime (p.normalTime + 1)
      run := if p.overloaded c then p.run + 1 else 0 }
  | .tripped => if c.recovery = .off then p else { p with wait := p.wait + 1 }
  | .locked => p

/-- A pair at a block boundary. The block that ends is whole only once the monitor has begun (R119); a new one begins. -/
def Pair.boundary (p : Pair) (c : StationConfig) (measured : Bool) : Pair :=
  { p.countProtection c with
    deadAir := if measured && p.quiet c then p.deadAir + 1 else 0
    clips := 0
    peak := 0
    allNormal := true
    allSounding := true }

/-! ## Dead air, trips and recovery as commands -/

/-- The dead-air counter has reached the dead-air time in blocks (R122). -/
def Pair.airDead (p : Pair) (c : StationConfig) : Bool := decide (c.deadAirTime * Config.blocksPerHoldUnit ≤ p.deadAir)

/-- DEAD_AIR is latched and the counter set to 0, where the counter has reached its limit (R122). -/
def State.latchDeadAir (s : State) (o : OutPair) : State :=
  if (s.pair o).airDead s.cfg then (s.setPair o { s.pair o with deadAir := 0 }).latch (deadAirFlag o) else s

/-- DEAD_AIR (R122). -/
def execDeadAir (o : OutPair) (s : State) : Host.Outcome State Fault Refusal := .next (s.latchDeadAir o)

/-- The NORMAL time has reached its limit (R127). -/
def Pair.forgiven (p : Pair) : Bool := decide (p.prot = .normal) && decide (Config.forgiveTime ≤ p.normalTime)

/-- Attempts are forgiven where the NORMAL time has reached its limit (R127). -/
def Pair.forgive (p : Pair) : Pair := if p.forgiven then { p with attempts := 0 } else p

/-- ATTEMPTS_FORGIVEN (R127). -/
def execAttemptsForgiven (o : OutPair) (s : State) : Host.Outcome State Fault Refusal :=
  .next (s.setPair o (s.pair o).forgive)

/-- The overload run of a NORMAL pair has reached its limit (R124). -/
def Pair.tripDue (p : Pair) : Bool := decide (p.prot = .normal) && decide (Config.tripRun ≤ p.run)

/-- The attempts are exhausted (R125). -/
def Pair.exhausted (p : Pair) (c : StationConfig) : Bool :=
  (decide (c.recovery = .short) || decide (c.recovery = .long)) && decide (Config.maxAttempts ≤ p.attempts)

/-- The trip (R124, R125): TRIPPED, or LOCKED when the attempts are exhausted. -/
def Pair.trip (p : Pair) (c : StationConfig) : Pair :=
  { p with
    prot := if p.exhausted c then .locked else .tripped
    run := 0
    wait := 0
    normalTime := 0 }

/-- A pair whose run has reached 16 trips, and TRIP is latched; attempts that the same boundary forgives are forgiven first
(R127). -/
def State.tripPair (s : State) (o : OutPair) : State :=
  if (s.pair o).tripDue then (s.setPair o ((s.pair o).forgive.trip s.cfg)).latch .trip else s

/-- OVERLOAD_TRIP (R125). -/
def execOverloadTrip (o : OutPair) (s : State) : Host.Outcome State Fault Refusal := .next (s.tripPair o)

/-- The length of the recovery wait in blocks (R126); none under OFF. -/
def Recovery.wait : Recovery → Option Nat
  | .off => none
  | .short => some 100
  | .long => some 1000
  | .endless => some 1000

/-- A TRIPPED pair's wait has reached its length (R126). -/
def Pair.waitOver (p : Pair) (c : StationConfig) : Bool :=
  match c.recovery.wait with
  | some n => decide (p.prot = .tripped) && decide (n ≤ p.wait)
  | none => false

/-- The return to NORMAL (R126): the attempt counter rises by one under SHORT and LONG. -/
def Pair.recover (p : Pair) (c : StationConfig) : Pair :=
  { p with
    prot := .normal
    run := 0
    wait := 0
    normalTime := 0
    attempts := if c.recovery = .endless then p.attempts else p.attempts + 1 }

/-- The pair returns to NORMAL where its wait is over (R126). -/
def State.recoverPair (s : State) (o : OutPair) : State :=
  if (s.pair o).waitOver s.cfg then s.setPair o ((s.pair o).recover s.cfg) else s

/-- RECOVERY_WAIT_END (R126). -/
def execRecoveryWaitEnd (o : OutPair) (s : State) : Host.Outcome State Fault Refusal := .next (s.recoverPair o)

/-- The all-stop's part on one pair (R129): the monitor's figures and the dead-air counter are kept. -/
def Pair.allStop (p : Pair) : Pair :=
  { p with prot := .normal, attempts := 0, run := 0, wait := 0, normalTime := 0 }

/-- OUT's part of the all-stop (R129). -/
def State.allStopOutput (s : State) : State := { s with pgm := s.pgm.allStop, floor := s.floor.allStop }

end Sys2Proof.Machine
end

