-- ==== Sys2Proof/Machine/Loader.lean ====
section
/-! DEFINITION. LDR: reset, the two loading reads, the join wait, entry to SILENT and duplicate numbers (R159 to R170). -/

namespace Sys2Proof.Machine

/-! ## Reset (R159) -/

/-- RESET (R159): everything in progress is abandoned and every block holds its reset values. The queue of commands that wait
and the count of free choices belong to the model, not to the part, and are kept (log entry 25). -/
def execReset (s : State) : Host.Outcome State Fault Refusal :=
  .next { State.reset with pending := s.pending, choices := s.choices }

/-! ## The configuration block (R161, R162) -/

/-- A configuration is taken for the whole run; the group views hold their reset values under it (R72, R161). -/
def State.useConfig (s : State) (c : StationConfig) (defaultsTaken : Bool) : State :=
  { s with
    cfg := c
    configDefaults := defaultsTaken
    groups := c.groups.map GroupView.reset
    load := .directory }

/-- The check of a configuration block (R172). -/
def configAgrees (bytes : List Byte) : Bool := checkAgrees bytes 126

/-- One read of the configuration block is tested (R161). -/
def State.testConfig (s : State) (bytes : List Byte) : State :=
  match s.load with
  | .config =>
    if configAgrees bytes then s.useConfig (decodeConfig bytes) (configFieldDefaulted bytes) else { s with load := .configAgain }
  | .configAgain =>
    if configAgrees bytes then s.useConfig (decodeConfig bytes) (configFieldDefaulted bytes)
    else s.useConfig StationConfig.default true
  | .directory => s

/-- LOADING waits for a read of the configuration block (R160). -/
def State.awaitsConfig (s : State) : Bool := s.isLoading && decide (s.load ≠ .directory)

/-- CONFIG_READ_END (R161). Outside LOADING, and once the configuration is settled, no such read ends (log entry 4). -/
def execConfigReadEnd (bytes : List Byte) (s : State) : Host.Outcome State Fault Refusal :=
  if bytes.length ≠ configBytes then .refused .malformed
  else .next (if s.awaitsConfig && s.readBrings bytes then s.testConfig bytes else s)

/-! ## The cue directory and the end of LOADING (R163, R164) -/

/-- The station leaves LOADING (R164): an unnumbered one enters SILENT, a numbered one JOINING; the receiver is switched on. -/
def State.leaveLoading (s : State) : State :=
  { s with
    mode := if s.cfg.number = 0 then .silent else .joining
    join := if s.cfg.number = 0 then .done else .notOffered
    rx := .seekingIdle
    idleCount := 0 }

/-- The cue table is filled and the BAD records are counted (R6, R163). -/
def State.fillDirectory (s : State) (bytes : List Byte) : State :=
  { s with cues := directoryOf bytes, badRecords := badCount (directoryOf bytes) }

/-- LOADING waits for the directory read (R160). -/
def State.awaitsDirectory (s : State) : Bool := s.isLoading && decide (s.load = .directory)

/-- DIRECTORY_READ_END (R163, R164). While LOADING waits for another read, and outside LOADING, no such read ends (log
entry 4). -/
def execDirectoryReadEnd (bytes : List Byte) (s : State) : Host.Outcome State Fault Refusal :=
  if bytes.length ≠ directoryBytes then .refused .malformed
  else .next (if s.awaitsDirectory && s.readBrings bytes then (s.fillDirectory bytes).leaveLoading else s)

/-! ## The join wait (R165, R166) -/

/-- The 20th block boundary of the join wait has come (R165). -/
def State.joinReady (s : State) : Bool :=
  match s.mode, s.join with
  | .joining, .waiting n => decide (Config.joinBlocks ≤ n)
  | _, _ => false

/-- The station enters RUN where its join wait is over; no pass runs (R165, R166). -/
def State.endJoinWait (s : State) : State := if s.joinReady then { s with mode := .run, join := .done } else s

/-- JOIN_WAIT_END (R165). -/
def execJoinWaitEnd (s : State) : Host.Outcome State Fault Refusal := .next s.endJoinWait

/-- A block boundary counts in the join wait (R165). -/
def JoinStage.count : JoinStage → JoinStage
  | .waiting n => .waiting (n + 1)
  | .notOffered => .notOffered
  | .offered => .offered
  | .done => .done

/-! ## SILENT (R69, R92, R169) -/

/-- A voice whose START is removed at entry to SILENT becomes LOCAL; an ANNOUNCED one stays so (R69). -/
def Voice.toLocal (w : Voice) : Voice :=
  match w.announce with
  | .queued => { w with announce := .localOnly }
  | .localOnly => w
  | .announced _ => w

/-- Entry to SILENT from JOINING or RUN (R169): the queue is emptied, QUEUED voices become LOCAL, nothing is owed, and voices
whose CLAIM was queued are withdrawn, REFUSED (R92). The mode changes first (log entry 31). -/
def State.enterSilent (s : State) : State :=
  visitServing (fun v t => State.withdraw t v .refused) (slots.filter fun v => s.claimQueued v)
    { s with
      mode := .silent
      join := .done
      queue := []
      owedEnd := none
      voices := s.voices.map Voice.toLocal }

/-- LDR's handling of a frame from another station that bears this station's number (R167, R168): `fresh` says that it is a
STATUS whose fresh bit is set. -/
def State.duplicateFrame (s : State) (fresh : Bool) : State :=
  match s.mode with
  | .joining => s.enterSilent
  | .run => if fresh then s.offerStatus else s.enterSilent
  | .silent => s
  | .loading => s

end Sys2Proof.Machine
end

