-- ==== Sys2Proof/Machine/Groups.lean ====
section
/-! DEFINITION. GRP: arming, choke, claim, HELD and RELEASE as completed frames change the view (R72 to R92). -/

namespace Sys2Proof.Machine

/-! ## Arming (R74, R75) -/

/-- A group set names the group at a place of the table; its position for group 0 has no effect (R73, 10.1). -/
def names (groups : GroupSet) (i : Nat) : Bool := groups.getLsbD (i + 1)

/-- The named groups' armed flags take a value. -/
def State.setArmed (s : State) (groups : GroupSet) (value : Bool) : State :=
  { s with groups := s.groups.mapIdx fun i g => if names groups i then { g with armed := value } else g }

/-- At least one named group changes when armed becomes `value`. -/
def State.armingChanges (s : State) (groups : GroupSet) (value : Bool) : Bool :=
  groupPlaces.any fun i => names groups i.val && decide ((s.groups.get i).armed ≠ value)

/-- The completion of an ARM (R74). -/
def State.armGroups (s : State) (groups : GroupSet) : State :=
  if s.armingChanges groups true then (s.setArmed groups true).runPass else s

/-- Voice v is CLAIMING for a named group with its CLAIM queued. -/
def State.claimsNamed (s : State) (groups : GroupSet) (v : Fin 8) : Bool :=
  match groupPlace (s.cueOf (s.voice v)).group with
  | some i => names groups i.val && s.claimQueued v
  | none => false

/-- The completion of a DISARM (R75): the named groups are disarmed, then their queued claims are withdrawn, then a pass runs.
Where no group changes nothing is withdrawn (log entry 21). -/
def State.disarmGroups (s : State) (groups : GroupSet) : State :=
  if s.armingChanges groups false then
    (visitServing (fun v t => State.withdraw t v .refused) (slots.filter fun v => s.claimsNamed groups v)
      (s.setArmed groups false)).runPass
  else s

/-! ## Choke (R77) -/

/-- A foreign START for group g chokes voice v: ANNOUNCED, PRIMING or SOUNDING, of group g (R77). -/
def State.chokes (s : State) (g : Nat) (v : Fin 8) : Bool :=
  let w := s.voice v
  w.state.fresh && decide ((s.cueOf w).group = g) &&
    (match w.announce with
    | .announced _ => true
    | .queued => false
    | .localOnly => false)

/-- The choke of a foreign START for group g (R77). -/
def State.chokeGroup (s : State) (g : Nat) : State :=
  if s.groupMode g = .lastWins then
    visitServing (fun v t => if t.chokes g v then t.releaseVoice v (.fade (t.chokeFade g)) else t)
      (slots.filter fun v => s.chokes g v) s
  else s

/-! ## The station's own CLAIM (R52, R81) -/

/-- The voice of the station that is CLAIMING for group g; there is at most one (R40). -/
def State.claimant (s : State) (g : Nat) : Option (Fin 8) :=
  slots.find? fun v => decide ((s.voice v).state = .claiming) && decide ((s.cueOf (s.voice v)).group = g)

/-- The line of a source. -/
def Source.line? : Source → Option (Fin 8)
  | .line n => some n
  | .remote => Option.none
  | .none => Option.none

/-- The view after the station's own CLAIM: holder and last winner are this station, and the holding voice and holding line are
those of the CLAIMING voice (R81). -/
def GroupView.won (g : GroupView) (number : Nat) (voice : Option (Fin 8 × Nat)) (line : Option (Fin 8)) : GroupView :=
  { g with holder := some number, lastWinner := number, holdingVoice := voice, holdingLine := line }

/-- An owed release of the voice's line is applied and its mark is cleared (R30, R52). -/
def State.applyOwedRelease (s : State) (v : Fin 8) (src : Source) : State :=
  match src.line? with
  | some n => if (s.line n).owedRelease then (s.setLine n (s.line n).clearOwed).releaseAsLine v else s
  | none => s

/-- A stop mark on a voice that has entered PRIMING releases it by fade, to FREE, and is cleared with it (R52, R57). -/
def State.applyStopMark (s : State) (v : Fin 8) : State :=
  if (s.voice v).stopMark then s.releaseVoice v (.fade 0) else s

/-- CLAIMING to PRIMING (R52, R81): in order, the voice needs a chunk, the decision to announce it is made, its claimed request
ends PLAYED, an owed release is applied, and a stop mark is acted on. -/
def State.claimWon (s : State) (v : Fin 8) : State :=
  let src := (s.voice v).source
  let s1 := ((s.setVoice v { s.voice v with state := .priming }).arbitrate).decideAnnounce v
  let s2 := (s1.setVoice v { s1.voice v with claimed := .played }).recordPlayed src
  (s2.applyOwedRelease v src).applyStopMark v

/-- The completion of the station's own CLAIM for group g (R81). -/
def State.ownClaim (s : State) (g : Nat) : State :=
  match groupPlace g with
  | none => s
  | some i =>
    match s.claimant g with
    | none => s.setGroup i ((s.groups.get i).won s.cfg.number none none)
    | some v =>
      ((s.setGroup i ((s.groups.get i).won s.cfg.number (some (v, s.tag v)) (s.voice v).source.line?)).claimWon v).settlePasses

/-! ## Another station's CLAIM (R82, R83) -/

/-- The voice of the station CLAIMING for group g with its CLAIM queued is withdrawn, if there is one (R82, R86). -/
def State.withdrawClaim (s : State) (g : Nat) (o : RequestOutcome) : State :=
  match s.claimant g with
  | some v => if s.claimQueued v then (s.withdraw v o).settlePasses else s
  | none => s

/-- GRP queues a HELD for group g in RUN, unless one from this station is already in the queue (R73, R83). -/
def State.queueHeld (s : State) (g : Nat) : State :=
  if s.isRun && !s.hasFrame (Frame.isHeldOf g) then s.offer (.held (BitVec.ofNat 8 g)) else s

/-- Another station's CLAIM for group g completes (R82, R83). -/
def State.foreignClaim (s : State) (src g : Nat) : State :=
  match groupPlace g with
  | none => s
  | some i =>
    if (s.cfg.groups.get i).mode = .firstWins then
      match (s.groups.get i).holder with
      | none =>
        (s.setGroup i { s.groups.get i with holder := some src, lastWinner := src }).withdrawClaim g .lost
      | some h => if h = s.cfg.number then s.queueHeld g else s
    else s

/-! ## HELD (R62, R86, R87) -/

/-- HELD and RELEASE for group g. -/
def Frame.keepsGroup (g : Nat) (f : Frame) : Bool := f.isHeldOf g || f.isReleaseOf g

/-- The former holding voice yields (R62): its claimed request changes from PLAYED to LOST, and it is cut. -/
def State.yieldVoice (s : State) (v : Fin 8) : State :=
  let w := s.voice v
  let s1 :=
    match w.claimed with
    | .played => (s.setVoice v { w with claimed := .none }).recordOutcome w.source .lost
    | .openClaim => s
    | .none => s
  s1.releaseVoice v .cut

/-- The yield of the voice that was the holding voice, where it is still that use of its slot and not FREE (R86). -/
def State.yieldHolding (s : State) (held : Option (Fin 8 × Nat)) : State :=
  match held with
  | some (v, tag) => if s.tag v = tag ∧ (s.voice v).state ≠ .free then (s.yieldVoice v).settlePasses else s
  | none => s

/-- Another station's HELD for group g completes: the five steps of R86. -/
def State.foreignHeld (s : State) (src g : Nat) : State :=
  match groupPlace g with
  | none => s
  | some i =>
    if (s.cfg.groups.get i).mode = .firstWins then
      let was := s.groups.get i
      let s2 := s.setGroup i { was with holder := some src, lastWinner := src, holdingVoice := none, holdingLine := none }
      let s4 := (s2.takeOut (Frame.keepsGroup g)).withdrawClaim g .lost
      if was.holder = some s.cfg.number then s4.yieldHolding was.holdingVoice else s4
    else s

/-- The station's own HELD for group g completes (R87). -/
def State.ownHeld (s : State) (g : Nat) : State :=
  match groupPlace g with
  | none => s
  | some i =>
    if (s.cfg.groups.get i).mode = .firstWins then
      s.setGroup i { s.groups.get i with holder := some s.cfg.number, lastWinner := s.cfg.number }
    else s

/-! ## RELEASE (R89) -/

/-- A RELEASE for group g completes, from any station (R89). -/
def State.releaseGroup (s : State) (g : Nat) : State :=
  match groupPlace g with
  | none => s
  | some i =>
    if (s.cfg.groups.get i).mode = .firstWins then
      let was := s.groups.get i
      let t := (s.takeOut (Frame.keepsGroup g)).setGroup i { was with holder := none, holdingVoice := none, holdingLine := none }
      if was.holder.isSome then t.runPass else t
    else s

/-- At the all-stop GRP queues a RELEASE for the FIRST_WINS group at place i if this station holds it (R90). -/
def State.releaseHeld (s : State) (i : Fin 15) : State :=
  if (s.cfg.groups.get i).mode = .firstWins ∧ (s.groups.get i).holder = some s.cfg.number then s.queueRelease (groupNumber i)
  else s

/-- The places of the groups this station holds in its view. -/
def State.heldPlaces (s : State) : List (Fin 15) :=
  groupPlaces.filter fun i =>
    decide ((s.cfg.groups.get i).mode = .firstWins) && decide ((s.groups.get i).holder = some s.cfg.number)

end Sys2Proof.Machine
end

