-- ==== Sys2Proof/Machine/Console.lean ====
section
/-! DEFINITION. What a completed STOP, all-stop, FIRE or ASK does at a station it addresses (R33, R35, R70, R71, R90, R129, R152). -/

namespace Sys2Proof.Machine

/-- A target addresses this station: its number or 0 (R33, R35, R70, R152). -/
def State.addressed (s : State) (target : Byte) : Bool := target.toNat == 0 || target.toNat == s.cfg.number

/-! ## STOP on requests (R35) -/

/-- The request of line n ends WITHDRAWN where its cue is c. -/
def State.stopRequest (s : State) (c : Nat) (n : Fin 8) : State :=
  match (s.line n).request with
  | some r => if r.cue = c then s.withdrawRequest n else s
  | none => s

/-- Remote entries that a test picks end WITHDRAWN and leave; where a new entry comes to the head, a pass runs (R35, R36). -/
def State.withdrawRemote (s : State) (p : RemoteEntry → Bool) : State :=
  if s.remote.any p then
    let t := { s.recordOutcome .remote .withdrawn with remote := s.remote.filter fun r => !p r }
    if (s.remote.take 1).any p && !t.remote.isEmpty then t.runPass else t
  else s

/-- A STOP for cue c withdraws the requests for it (R35). -/
def State.stopRequests (s : State) (c : Nat) : State :=
  (inOrder (fun n t => State.stopRequest t c n) slots s).withdrawRemote fun r => r.cue == c

/-! ## STOP on voices (R70) -/

/-- A STOP or all-stop of fade index k acts on voice v (R70). -/
def State.stopVoice (s : State) (k : Nat) (v : Fin 8) : State :=
  let w := s.voice v
  if s.claimQueued v then s.withdraw v .withdrawn
  else if s.claimFlying v then s.setVoice v { w with stopMark := true }
  else s.releaseVoice v (.fade k)

/-- Voice v is a voice of cue c. -/
def State.isVoiceOf (s : State) (c : Nat) (v : Fin 8) : Bool :=
  decide ((s.voice v).state ≠ .free) && decide ((s.voice v).cue = c)

/-- A STOP for cue c of fade index k acts on every voice of the cue (R70). -/
def State.stopVoices (s : State) (c k : Nat) : State :=
  visitServing (fun v t => if t.isVoiceOf c v then t.stopVoice k v else t) (slots.filter fun v => s.isVoiceOf c v) s

/-- A STOP for a cue from 0 to 254 (R35, R70): the requests it withdraws are gone when its voices' passes run. That TRG's part, with
the pass of a new remote head, comes before VCE's releases by fade is the model's choice (log entry 33). -/
def State.stopCue (s : State) (c k : Nat) : State := (s.stopRequests c).stopVoices c k

/-! ## All-stop (R35, R71, R90, R129) -/

/-- TRG's part of the all-stop on one line (R35): its request has ended, its penalty is over, its mark is clear. -/
def Line.allStop (l : Line) : Line := { l with penalty := none, penaltyNew := false, owedRelease := false }

/-- TRG's part of the all-stop (R35). -/
def State.allStopRequests (s : State) : State :=
  (inOrder (fun n t => (State.withdrawRequest t n).setLine n ((State.withdrawRequest t n).line n).allStop) slots s).withdrawRemote
    fun _ => true

/-- VCE's part of the all-stop (R71): every voice. -/
def State.allStopVoices (s : State) (k : Nat) : State := visitServing (fun v t => State.stopVoice t k v) slots s

/-- GRP's part of the all-stop (R90). -/
def State.allStopGroups (s : State) : State := visit (fun i t => State.releaseHeld t i) s.heldPlaces s

/-- The owners whose parts of the all-stop may meet: TRG, VCE and GRP (R71, R90). -/
inductive AllStopPart where
  | requests
  | voices
  | groups
  deriving DecidableEq, Repr

/-- One owner's part of the all-stop of fade index k. -/
def State.allStopPart (s : State) (k : Nat) : AllStopPart → State
  | .requests => s.allStopRequests
  | .voices => s.allStopVoices k
  | .groups => s.allStopGroups

/-- A trip that a boundary made due and no command has taken comes before the all-stop, which would clear the run (R124, R129; log
entry 2). -/
def State.takeTrips (s : State) : State := (s.tripPair .pgm).tripPair .floor

/-- The all-stop: OUT's part touches nothing that another part does, and the other three are taken in an order the spec does not
give (R71; log entry 30). -/
def State.allStop (s : State) (k : Nat) : State :=
  visit (fun p t => State.allStopPart t k p) [.requests, .voices, .groups] s.takeTrips.allStopOutput

/-- A STOP frame completes at a station (R35, R70, R71). -/
def State.stopFrame (s : State) (target cue : Byte) (fade : BitVec 3) : State :=
  if s.addressed target then
    if cue.toNat = 255 then s.allStop fade.toNat else s.stopCue cue.toNat fade.toNat
  else s

/-! ## FIRE (R33) -/

/-- A FIRE of station src for cue c at a station it addresses (R33). -/
def State.fireCue (s : State) (src c : Nat) : State :=
  if s.remote.any fun r => r.source == src && r.cue == c then s
  else if s.remote.length < Config.remoteSize then
    { s with remote := s.remote ++ [RemoteEntry.mk c src 0] }.runPass
  else s.latch .remoteFull

/-- A FIRE frame completes at a station (R33). -/
def State.fireFrame (s : State) (src : Nat) (target cue : Byte) : State :=
  if s.addressed target then s.fireCue src cue.toNat else s

/-! ## ASK (R152) -/

/-- An ASK frame of another station completes at a station (R152). -/
def State.askFrame (s : State) (target : Byte) : State :=
  if s.addressed target && (decide (s.mode = .joining) || s.isRun) then s.offerStatus else s

end Sys2Proof.Machine
end

