-- ==== Sys2Proof/Machine/Received.lean ====
section
/-! DEFINITION. Frames of other stations as they complete at this one (R136, R142, R143, R167, R168). -/

namespace Sys2Proof.Machine

/-- A frame of another station can complete here: the receiver took its start bit at idle, or lost arbitration to it, and the station
is not itself sending (R131, R132, R137, R142; log entry 11). -/
def State.canReceive (s : State) : Bool := !s.isLoading && !s.isFlying && decide (s.rx = .receiving)

/-- The station drives the echo of a frame that it accepts (R136). -/
def State.echoes (s : State) : Bool := decide (s.mode = .joining) || decide (s.mode = .run)

/-- The station has accepted a frame that has completed (R136, R143): it drove the echo in JOINING and RUN, counts the frame, and
waits for idle. -/
def State.countFrame (s : State) : State :=
  { s with
    received := (s.received + 1) % 256
    echoed := s.echoes
    tx := .idle
    rx := .seekingIdle
    idleCount := 0 }

/-- A source that is no station's number (R143). -/
def isNoStation (source : BitVec 5) : Bool := source.toNat == 0 || source.toNat == 31

/-- A frame's source is this station's own number. -/
def State.ownNumber (s : State) (source : BitVec 5) : Bool := !isNoStation source && source.toNat == s.cfg.number

/-- The owners' effects of another station's START (R77, R104): LVL's and GRP's touch different state. -/
def State.startFrameDone (s : State) (src : Nat) (group tag : Byte) (emit : ClassSet) (depth hold : Byte) : State :=
  (s.duckStart src tag.toNat emit depth.toNat hold.toNat).chokeGroup group.toNat

/-- The owners' effects of a completed frame of another station (R142). -/
def State.applyForeign (s : State) (src : Nat) : Frame → State
  | .claim g _ => s.foreignClaim src g.toNat
  | .held g => s.foreignHeld src g.toNat
  | .release g => s.releaseGroup g.toNat
  | .start g _ t e d h => s.startFrameDone src g t e d h
  | .endFrame t _ => s.duckEnd src t.toNat
  | .hold t h => s.duckHold src t.toNat h.toNat
  | .stop target c k => s.stopFrame target c k
  | .fire target c => s.fireFrame src target c
  | .arm gs => s.armGroups gs
  | .disarm gs => s.disarmGroups gs
  | .ask target => s.askFrame target
  | .status _ _ _ _ _ _ => s

/-- A frame that another station sent completes here (R142, R143): it is counted; one that bears this station's number goes to
LDR alone; one of source 0 or 31, or of no kind and length of 10.1 (`f` is none), is applied to no owner. -/
def State.receiveFrame (s : State) (source : BitVec 5) (f : Option Frame) : State :=
  if !s.canReceive then s
  else if s.ownNumber source then s.countFrame.duplicateFrame (isFreshStatus f)
  else if isNoStation source then s.countFrame
  else
    match f with
    | none => s.countFrame
    | some f => s.countFrame.applyForeign source.toNat f

/-- A frame that another station sent, given by its kind code and payload bytes. -/
def receiveRaw (kind source : BitVec 5) (payload : List Byte) (s : State) : Host.Outcome State Fault Refusal :=
  if payload.length ≤ payloadMax then .next (s.receiveFrame source (frameOf kind payload)) else .refused .malformed

/-! ## The commands -/

/-- CLAIM (R82, R83) -/
def execClaim (source : BitVec 5) (group cue : Byte) (s : State) : Host.Outcome State Fault Refusal :=
  .next (s.receiveFrame source (some (.claim group cue)))

/-- HELD (R86) -/
def execHeld (source : BitVec 5) (group : Byte) (s : State) : Host.Outcome State Fault Refusal :=
  .next (s.receiveFrame source (some (.held group)))

/-- START (R77, R104) -/
def execStart (source : BitVec 5) (group cue tag : Byte) (emit : ClassSet) (depth hold : Byte) (s : State) :
    Host.Outcome State Fault Refusal :=
  .next (s.receiveFrame source (some (.start group cue tag emit depth hold)))

/-- END (R107) -/
def execEnd (source : BitVec 5) (tag group : Byte) (s : State) : Host.Outcome State Fault Refusal :=
  .next (s.receiveFrame source (some (.endFrame tag group)))

/-- HOLD (R106) -/
def execHold (source : BitVec 5) (tag hold : Byte) (s : State) : Host.Outcome State Fault Refusal :=
  .next (s.receiveFrame source (some (.hold tag hold)))

/-- ASK (R152) -/
def execAsk (source : BitVec 5) (target : Byte) (s : State) : Host.Outcome State Fault Refusal :=
  .next (s.receiveFrame source (some (.ask target)))

/-- STATUS (R158): counted, and applied to no owner. -/
def execStatus (source : BitVec 5) (b0 b1 b2 b3 b4 b5 : Byte) (s : State) : Host.Outcome State Fault Refusal :=
  .next (s.receiveFrame source (some (.status b0 b1 b2 b3 b4 b5)))

/-- RX_UNAPPLIED_FRAME (R143) -/
def execRxUnappliedFrame (kind source : BitVec 5) (payload : List Byte) (s : State) : Host.Outcome State Fault Refusal :=
  receiveRaw kind source payload s

/-- RX_OWN_NUMBER_FRAME (R167, R168): the frame's source is this station's number. -/
def execRxOwnNumberFrame (kind : BitVec 5) (payload : List Byte) (s : State) : Host.Outcome State Fault Refusal :=
  receiveRaw kind (BitVec.ofNat 5 s.cfg.number) payload s

/-- RX_FRESH_STATUS_OWN_NUMBER (R168): a STATUS whose source is this station's number; bit 7 of its byte 0 is the fresh bit. -/
def execRxFreshStatusOwnNumber (b0 b1 b2 b3 b4 b5 : Byte) (s : State) : Host.Outcome State Fault Refusal :=
  .next (s.receiveFrame (BitVec.ofNat 5 s.cfg.number) (some (.status b0 b1 b2 b3 b4 b5)))

end Sys2Proof.Machine
end

