-- ==== Sys2Proof/Machine/Sent.lean ====
section
/-! DEFINITION. The station's own frames as they complete, and the commands for frames that may be its own or another's (R65, R68, R81, R87, R141, R156). -/

namespace Sys2Proof.Machine

/-- The own frame in flight has completed (R141): it leaves the queue, the station waits for idle, and UNHEARD is latched where no
receiver drove the echo. -/
def State.flightDone (s : State) (heard : Bool) : State :=
  { s with
    queue := s.queue.filter fun e => e.waiting
    tx := .idle
    rx := .seekingIdle
    idleCount := 0 }.latchIf (!heard) .unheard

/-- The completion of the station's own START (R65): the voice of its tag becomes ANNOUNCED with H as sent, or an owed END for the
tag is queued. In JOINING and SILENT no START is sent (R132). -/
def State.ownStart (s : State) (tag hold : Nat) : State :=
  let v := tagSlot tag
  let w := s.voice v
  if s.tag v = tag ∧ w.announce = .queued then s.setVoice v { w with announce := .announced hold }
  else
    match s.owedEnd with
    | some o => if o.tag = tag then { s with owedEnd := none }.offer (endFrameOf o.tag o.group) else s
    | none => s

/-- The completion of the station's own HOLD (R68). -/
def State.ownHold (s : State) (tag hold : Nat) : State :=
  let v := tagSlot tag
  let w := s.voice v
  match w.announce with
  | .announced _ => if s.tag v = tag then s.setVoice v { w with announce := .announced hold } else s
  | .queued => s
  | .localOnly => s

/-- LDR's part in the completion of the station's own STATUS (R165): the join wait begins with the join STATUS. -/
def State.joinStatusDone (s : State) : State :=
  match s.mode, s.join with
  | .joining, .offered => { s with join := .waiting 0 }
  | _, _ => s

/-- The owners' effects of the station's own completed frame (R142). -/
def State.applyOwn (s : State) : Frame → State
  | .claim g _ => s.ownClaim g.toNat
  | .held g => s.ownHeld g.toNat
  | .release g => s.releaseGroup g.toNat
  | .start _ _ t _ _ h => s.ownStart t.toNat h.toNat
  | .endFrame _ _ => s
  | .hold t h => s.ownHold t.toNat h.toNat
  | .stop target c k => s.stopFrame target c k
  | .fire target c => s.fireFrame s.cfg.number target c
  | .arm gs => s.armGroups gs
  | .disarm gs => s.disarmGroups gs
  | .ask _ => s
  | .status _ _ b2 b3 _ _ => (s.statusDone b2 b3).joinStatusDone

/-- The own frame in flight completes where it is as asked; otherwise there is no such event (log entry 12). -/
def State.completeOwn (s : State) (heard : Bool) (p : Frame → Bool) : State :=
  match s.flying with
  | some e => if p e.frame then (s.flightDone heard).applyOwn e.frame else s
  | none => s

/-- A given frame completes: the station's own, or one from another station. -/
def State.completeFrame (s : State) (sender : Sender) (f : Frame) : State :=
  match sender with
  | .own heard => s.completeOwn heard fun x => x == f
  | .other source => s.receiveFrame source (some f)

def Frame.isClaim (f : Frame) : Bool := f.kind == 0
def Frame.isHeld (f : Frame) : Bool := f.kind == 1
def Frame.isStart (f : Frame) : Bool := f.kind == 3
def Frame.isEnd (f : Frame) : Bool := f.kind == 4
def Frame.isHold (f : Frame) : Bool := f.kind == 5

/-! ## The commands -/

/-- OWN_CLAIM_COMPLETE (R81) -/
def execOwnClaimComplete (heard : Bool) (s : State) : Host.Outcome State Fault Refusal := .next (s.completeOwn heard Frame.isClaim)

/-- OWN_HELD_COMPLETE (R87) -/
def execOwnHeldComplete (heard : Bool) (s : State) : Host.Outcome State Fault Refusal := .next (s.completeOwn heard Frame.isHeld)

/-- OWN_START_COMPLETE (R65) -/
def execOwnStartComplete (heard : Bool) (s : State) : Host.Outcome State Fault Refusal := .next (s.completeOwn heard Frame.isStart)

/-- OWN_END_COMPLETE (R141) -/
def execOwnEndComplete (heard : Bool) (s : State) : Host.Outcome State Fault Refusal := .next (s.completeOwn heard Frame.isEnd)

/-- OWN_HOLD_COMPLETE (R68) -/
def execOwnHoldComplete (heard : Bool) (s : State) : Host.Outcome State Fault Refusal := .next (s.completeOwn heard Frame.isHold)

/-- OWN_STATUS_COMPLETE (R156, R165) -/
def execOwnStatusComplete (heard : Bool) (s : State) : Host.Outcome State Fault Refusal :=
  .next (s.completeOwn heard Frame.isStatus)

/-- RELEASE (R89) -/
def execRelease (sender : Sender) (group : Byte) (s : State) : Host.Outcome State Fault Refusal :=
  .next (s.completeFrame sender (.release group))

/-- STOP (R35, R70); a frame of cue number 255 is the all-stop. -/
def execStop (sender : Sender) (target cue : Byte) (fade : BitVec 3) (s : State) : Host.Outcome State Fault Refusal :=
  .next (s.completeFrame sender (.stop target cue fade))

/-- ALL_STOP (R71): a STOP of cue number 255. -/
def execAllStop (sender : Sender) (target : Byte) (fade : BitVec 3) (s : State) : Host.Outcome State Fault Refusal :=
  .next (s.completeFrame sender (.stop target 255 fade))

/-- FIRE (R33) -/
def execFire (sender : Sender) (target cue : Byte) (s : State) : Host.Outcome State Fault Refusal :=
  .next (s.completeFrame sender (.fire target cue))

/-- ARM (R74) -/
def execArm (sender : Sender) (groups : GroupSet) (s : State) : Host.Outcome State Fault Refusal :=
  .next (s.completeFrame sender (.arm groups))

/-- DISARM (R75) -/
def execDisarm (sender : Sender) (groups : GroupSet) (s : State) : Host.Outcome State Fault Refusal :=
  .next (s.completeFrame sender (.disarm groups))

end Sys2Proof.Machine
end

