-- ==== Sys2Proof/Machine/BusPort.lean ====
section
/-! DEFINITION. BUS at the wire: idle, beginning a frame, lost arbitration, bit errors, start bits and discarded frames (R131 to R140, R150, R155). -/

namespace Sys2Proof.Machine

/-! ## Idle (R131, R165) -/

/-- LDR offers the join STATUS at the first idle in JOINING (R165). -/
def State.offerJoin (s : State) : State :=
  match s.mode, s.join with
  | .joining, .notOffered => { s with join := .offered }.offerStatus
  | _, _ => s

/-- BUS_IDLE (R131): 12 recessive bit times have been seen, so that an error flag is over (R140). The receiver is off in LOADING, and a
station that is sending a frame does not read the bus as idle (log entry 4). -/
def execBusIdle (s : State) : Host.Outcome State Fault Refusal :=
  .next
    (if s.isLoading || s.isFlying then s
    else { s.dropOver with rx := .idle, idleCount := Config.idleBits, tx := .idle }.offerJoin)

/-! ## Beginning a frame (R132, R155) -/

/-- The station mode lets an entry be begun (R132). -/
def mayBegin : Mode → Entry → Bool
  | .run, e => e.waiting
  | .joining, e => e.waiting && e.frame.isStatus
  | .loading, _ => false
  | .silent, _ => false

/-- The place in the queue of the frame that is begun (R132): the first waiting entry that the mode allows. -/
def State.nextToBegin (s : State) : Option Nat := s.queue.findIdx? (mayBegin s.mode)

/-- A STATUS is formed as it is begun; every other frame is sent with the fields it was queued with (R140, R155). -/
def State.formed (s : State) (f : Frame) : Frame := if f.isStatus then statusPayload s else f

/-- The entry at a place of the queue is begun: it is in flight, its bits are being sent, and a STATUS's formation clears every new
mark (R132, R144, R155). The receiver is held as waiting for idle until the frame ends (log entry 11). -/
def State.begin (s : State) (place : Nat) : State :=
  match s.queue[place]? with
  | some e =>
    let f := s.formed e.frame
    let e' : Entry := { e with frame := f, inFlight := true }
    { s with
      queue := s.queue.set place e'
      flags := if f.isStatus then clearMarks s.flags else s.flags
      tx := .sending (e'.raw s.cfg.number).wireBits
      rx := .seekingIdle
      idleCount := 0 }
  | none => s

/-- FRAME_BEGIN (R132): the bus reads as idle, no entry is in flight and the mode allows a waiting entry; otherwise no frame is begun
(log entry 4). -/
def execFrameBegin (s : State) : Host.Outcome State Fault Refusal :=
  .next
    (if s.rx = .idle ∧ s.queue.all Entry.waiting then
      match s.nextToBegin with
      | some i => s.begin i
      | none => s
    else s)

/-! ## Return from flight (R150) -/

/-- The claiming voice has been asked to end while its CLAIM was in flight: it bears the stop mark, or its line the owed-release
mark (R150). -/
def State.claimDoomed (s : State) (v : Fin 8) : Bool :=
  (s.voice v).stopMark ||
    (match (s.voice v).source.line? with
    | some n => (s.line n).owedRelease
    | none => false)

/-- The changes that were held off while a frame was in flight are applied (R150). -/
def State.heldOff (s : State) : Frame → State
  | .start _ _ t _ _ _ =>
    match s.owedEnd with
    | some o => if o.tag = t.toNat then { s.takeOut (Frame.isStartOf o.tag) with owedEnd := none } else s
    | none => s
  | .claim g _ =>
    match s.claimant g.toNat with
    | some v => if s.claimDoomed v then (s.withdraw v .withdrawn).settlePasses else s
    | none => s
  | .held _ => s
  | .release _ => s
  | .endFrame _ _ => s
  | .hold _ _ => s
  | .stop _ _ _ => s
  | .fire _ _ => s
  | .arm _ => s
  | .disarm _ => s
  | .ask _ => s
  | .status _ _ _ _ _ _ => s

/-- The entry in flight is a waiting entry again, at its place, with a given attempt count (R137, R139, R150). -/
def returned (attempts : Nat) (e : Entry) : Entry :=
  if e.inFlight then { e with inFlight := false, attempts := attempts } else e

/-- The entry in flight returns to the waiting entries with an attempt count, and the changes held off are applied (R150). -/
def State.returnFlight (s : State) (f : Frame) (attempts : Nat) : State :=
  { s with queue := s.queue.map (returned attempts) }.heldOff f

/-- ARBITRATION_LOST (R137): the frame waits again and the station receives the winner's. -/
def execArbitrationLost (s : State) : Host.Outcome State Fault Refusal :=
  .next
    (match s.flying with
    | some e => { s with tx := .idle, rx := .receiving }.returnFlight e.frame e.attempts
    | none => s)

/-! ## Bit errors (R139, R140, R149) -/

/-- The owner's part in the drop of a frame after its third bit error (R149, R165). -/
def State.dropped (s : State) : Frame → State
  | .claim g _ =>
    match s.claimant g.toNat with
    | some v => (s.withdraw v .refused).settlePasses
    | none => s
  | .start _ _ t _ _ _ =>
    let u := s.loseStart t.toNat
    match u.owedEnd with
    | some o => if o.tag = t.toNat then { u with owedEnd := none } else u
    | none => u
  | .status _ _ _ _ _ _ =>
    match s.mode, s.join with
    | .joining, .offered => s.enterSilent
    | _, _ => s
  | .held _ => s
  | .release _ => s
  | .endFrame _ _ => s
  | .hold _ _ => s
  | .stop _ _ _ => s
  | .fire _ _ => s
  | .arm _ => s
  | .disarm _ => s
  | .ask _ => s

/-- The station drives an error flag, then releases the wire and waits for idle (R139). -/
def State.driveError (s : State) : State := { s with tx := .errorFlag errorFlagBits, rx := .seekingIdle, idleCount := 0 }

/-- The entry in flight bears its third attempt and is not begun again (R140). -/
def droppedEntry (e : Entry) : Entry := if e.inFlight then { e with attempts := Config.maxBusAttempts } else e

/-- The frame in flight is dropped (R140): TX_FAULT is latched and its owner acts; it leaves the queue after the error flag
(`State.dropOver`; log entry 34). -/
def State.dropFlight (s : State) (f : Frame) : State :=
  ({ s with queue := s.queue.map droppedEntry }.latch .txFault).dropped f

/-- BIT_ERROR (R139, R140). -/
def execBitError (s : State) : Host.Outcome State Fault Refusal :=
  .next
    (match s.flying with
    | some e =>
      if Config.maxBusAttempts ≤ e.attempts + 1 then s.driveError.dropFlight e.frame
      else s.driveError.returnFlight e.frame (e.attempts + 1)
    | none => s)

/-! ## Receiving (R132, R134 to R136) -/

/-- RX_START_BIT (R132): a dominant bit at idle is the start bit of another station's frame. -/
def execRxStartBit (s : State) : Host.Outcome State Fault Refusal :=
  .next (if s.rx = .idle ∧ !s.isFlying then { s with rx := .receiving, idleCount := 0 } else s)

/-- The frame being received is discarded (R134 to R136): it is not counted, and the station waits for idle. `answered`: it had been
accepted at the last check bit, so that the echo was driven in JOINING and RUN. -/
def State.discardFrame (s : State) (answered : Bool) : State :=
  { s with echoed := answered && s.echoes, rx := .seekingIdle, idleCount := 0 }

/-- RX_DISCARD (R134 to R136): the levels read after the start bit are those of a frame that is discarded. Levels that spell a frame
the station accepts, or that end before the frame does, are no discard (log entry 4). -/
def execRxDiscard (bits : List Bool) (s : State) : Host.Outcome State Fault Refusal :=
  if frameBitsMax < bits.length then .refused .malformed
  else
    .next
      (match receive bits with
      | .discarded answered => if s.canReceive then s.discardFrame answered else s
      | .accepted _ => s
      | .unfinished => s)

end Sys2Proof.Machine
end

