-- ==== Sys2Proof/Machine/Boundaries.lean ====
section
/-! DEFINITION. The sample instant, the block boundary and the hold-unit boundary, and what they make due (R1, R13, R67, R94 to R119). -/

namespace Sys2Proof.Machine

/-! ## What a boundary made due and no command has yet taken (log entry 2) -/

/-- The event that line n gave at a boundary is acted on, if it still waits (R26). -/
def State.takeLineEvent (s : State) (n : Fin 8) : State :=
  match (s.line n).event with
  | some .press => s.pressEvent n
  | some .release => s.releaseEvent n
  | none => s

/-- Voice v enters FREE where it has reached end of data (R55, R61), and the passes run. -/
def State.endData (s : State) (v : Fin 8) : State :=
  if (s.voice v).atEnd (s.cueOf (s.voice v)) then (s.freeVoice v).settlePasses else s

/-- END_OF_DATA (R55): a voice that has not reached end of data does not end (log entry 4). -/
def execEndOfData (v : Fin 8) (s : State) : Host.Outcome State Fault Refusal := .next (s.endData v)

/-- What the boundaries made due on one pair: dead air, forgiveness, a trip, the end of a recovery wait (R122 to R127). -/
def State.settlePair (s : State) (o : OutPair) : State :=
  let t := s.latchDeadAir o
  ((t.setPair o (t.pair o).forgive).tripPair o).recoverPair o

/-- Everything that an earlier boundary or instant made due and no command has taken, in a fixed order (log entry 2). -/
def State.settle (s : State) : State :=
  let s1 := inOrder (fun n t => State.takeLineEvent t n) slots s
  let s2 := inOrder (fun v t => State.endData t v) slots s1
  let s3 := inOrder (fun n t => State.expireLine t (fun r => t.ripe r.age) n) slots s2
  let s4 := inOrder (fun i t => State.expireRemote t (fun r => t.ripe r.age) i) [3, 2, 1, 0] s3
  let s5 := ((s4.settlePair .pgm).settlePair .floor).endJoinWait
  let s6 := inOrder (fun n t => State.endPenalty t n) slots s5
  { s6 with ducks := liveDucks s6.ducks }

/-! ## The sample instant (R13, R21, R94 to R118) -/

/-- The voice plays a frame or underruns: its play offset advances, and at an underrun a fetch offset that is passed moves up
(R13, R21). -/
def Voice.playFrame (w : Voice) : Voice :=
  match w.buffer with
  | _ :: rest => { w with buffer := rest, playOffset := w.playOffset + 1 }
  | [] => { w with playOffset := w.playOffset + 1, fetchOffset := max w.fetchOffset (w.playOffset + 1) }

/-- The voice plays at this instant: SOUNDING or RELEASING, and not at end of data (R13). -/
def Voice.playsNow (w : Voice) (q : Cue) : Bool := w.state.plays && !w.atEnd q

/-- The voice underruns at this instant (R21). -/
def Voice.underruns (w : Voice) (q : Cue) : Bool := w.playsNow q && w.buffer.isEmpty

/-- V steps, where a command of this instant has not stepped it already (R94; log entry 7). -/
def Voice.stepVOnce (w : Voice) (q : Cue) : Voice := if w.vDone then { w with vDone := false } else w.stepV q

/-- V and D step (R94, R101). -/
def Voice.stepLevels (w : Voice) (q : Cue) (c : StationConfig) (target : Nat) : Voice :=
  let u := (w.stepVOnce q).restoreDuck
  if u.state.active then u.stepD c target else u

/-- A voice after the instant. -/
def Voice.tick (w : Voice) (q : Cue) (c : StationConfig) (target : Nat) : Voice :=
  ((if w.playsNow q then w.playFrame else w).stepLevels q c target)

/-- What voice v brings to the mix at the instant (R112, R113). -/
def State.playing (s : State) (v : Fin 8) : Option Playing :=
  let w := s.voice v
  let q := s.cueOf w
  if w.playsNow q then
    let u := w.tick q s.cfg (duckTarget s v)
    some
      { route := q.route
        level := u.level
        duck := u.duck
        frame := w.buffer.head?
        sounding := decide (w.state = .sounding) }
  else none

/-- Some voice underruns at the instant (R20). -/
def State.anyUnderrun (s : State) : Bool := slots.any fun v => (s.voice v).underruns (s.cueOf (s.voice v))

/-- The voices after the instant; each D* is formed from the state before it (R99, R100). -/
def State.tickVoices (s : State) : Table 8 Voice :=
  s.voices.mapIdx fun i w => w.tick (s.cueOf w) s.cfg (duckTarget s (Fin.ofNat 8 i))

/-- V of voice v has reached 0 in a fade or cut (R61, R97). -/
def State.runOut (s : State) (v : Fin 8) : Bool :=
  decide ((s.voice v).state = .releasing) && decide ((s.voice v).rate ≠ some .tail) && decide ((s.voice v).level = 0)

/-- The voices play and step, and the pairs are mixed (R13, R94 to R118). -/
def State.mixInstant (s : State) : State :=
  let ps := slots.filterMap fun v => s.playing v
  { s with
    voices := s.tickVoices
    pgm := s.pgm.instant ps .pgm s.cfg.trimPgm s.monitoring
    floor := s.floor.instant ps .floor s.cfg.trimFloor s.monitoring }.latchIf s.anyUnderrun .underrun

/-- The voices whose V has reached 0 enter FREE, in an order the spec does not give (R97). -/
def State.freeRunOut (s : State) : State :=
  visitServing (fun v t => if t.runOut v then t.freeVoice v else t) (slots.filter fun v => s.runOut v) s

/-- The error flag after a third bit error may be over by a sample instant: the spec gives its length in bit times, which the model does
not count, so the free value says whether it is (R139, R140; log entries 19 and 34). -/
def State.flagMayEnd (s : State) : State :=
  if s.dropPending then
    let t := { s with choices := s.choices + 1 }
    if Config.freeChoice s.choices % 2 = 0 then t.dropOver else t
  else s

/-- A sample instant is counted toward the block (R1). -/
def Timebase.countSample (t : Timebase) : Timebase := { t with divider := 0, samples := t.samples + 1 }

/-- The station at a sample instant (R13): in LOADING the ports send 0 and nothing plays (R118, R160). -/
def State.sampleInstant (s : State) : State :=
  let t := s.settle
  let t := { t with tmb := t.tmb.countSample }
  if t.isLoading then { t with pgm := t.pgm.mute, floor := t.floor.mute } else t.flagMayEnd.mixInstant.arbitrate.freeRunOut

/-- SAMPLE_INSTANT (R13). Where a boundary of the last instant is due, no instant comes before it (R1; log entry 4). -/
def execSampleInstant (s : State) : Host.Outcome State Fault Refusal :=
  .next (if s.tmb.blockDue || s.tmb.unitDue then s else s.sampleInstant)

/-! ## The block boundary (R1, R24, R34, R119 to R127, R165) -/

/-- A block boundary is counted toward the hold unit and the lamp cycle (R1). -/
def Timebase.countBlock (t : Timebase) : Timebase :=
  { t with
    samples := 0
    blocks := t.blocks + 1
    lamp := (t.lamp + 1) % Config.blocksPerLampCycle }

/-- OUT at the boundary: HOT is tested, and the figures of the ending block are judged (R119 to R127). The monitor's first block
begins at the first boundary after LOADING. -/
def State.judgeBlock (s : State) : State :=
  let t := (s.latchIf (s.monitoring && s.pgm.isHot s.cfg) (hotFlag .pgm)).latchIf (s.monitoring && s.floor.isHot s.cfg)
    (hotFlag .floor)
  { t with
    pgm := s.pgm.boundary s.cfg s.monitoring
    floor := s.floor.boundary s.cfg s.monitoring
    monitoring := true
    join := s.join.count }

/-- The station at a block boundary (R1): bit n of `levels` is the electrical level at line n (R24; log entry 9). -/
def State.blockBoundary (s : State) (levels : Byte) : State :=
  let t := s.settle
  let t := { t with tmb := t.tmb.countBlock }
  if t.isLoading then t else (t.sampleLines levels).ageRequests.judgeBlock

/-- BLOCK_BOUNDARY (R1). It comes with every 48th sample instant and at no other (log entry 4). -/
def execBlockBoundary (levels : Byte) (s : State) : Host.Outcome State Fault Refusal :=
  .next (if s.tmb.blockDue then s.blockBoundary levels else s)

/-! ## The hold-unit boundary (R29, R67, R108) -/

/-- The smaller of two bounds, either of which may be absent. -/
def lesser : Option Nat → Option Nat → Option Nat
  | some a, some b => some (min a b)
  | some a, none => some a
  | none, b => b

/-- The data bound on the remaining time (R67). -/
def Voice.dataBound (w : Voice) (q : Cue) : Option Nat :=
  (w.pathEnd q).map fun n => ceilDiv (n - w.playOffset) Config.samplesPerHoldUnit

/-- The fade bound on the remaining time (R67). -/
def Voice.fadeBound (w : Voice) : Option Nat :=
  match w.state, w.rate with
  | .releasing, some (.fade k) => some (ceilDiv (w.level * stepLength k) Config.samplesPerHoldUnit)
  | .releasing, some .cut => some 1
  | _, _ => none

/-- The remaining time R in hold units; none where it is unbounded (R67). -/
def Voice.remainingTime (w : Voice) (q : Cue) : Option Nat := lesser (w.dataBound q) w.fadeBound

/-- H falls by one and stays at 0 (R67). -/
def Announce.countHold : Announce → Announce
  | .announced h => .announced (h - 1)
  | .queued => .queued
  | .localOnly => .localOnly

/-- The HOLD that the test of R67 asks for: none, or the hold it carries. -/
def Voice.holdWanted (w : Voice) (q : Cue) : Option Nat :=
  match w.announce with
  | .announced h =>
    if h ≤ Config.refreshAt then
      match w.remainingTime q with
      | none => some 255
      | some r => if h < r then some (min r 255) else none
    else none
  | .queued => none
  | .localOnly => none

/-- VCE queues a HOLD for voice v where the test of R67 asks for one and none for its tag is in the queue. -/
def State.refreshHold (s : State) (v : Fin 8) : State :=
  match (s.voice v).holdWanted (s.cueOf (s.voice v)) with
  | some h =>
    if s.isRun && !s.hasFrame (Frame.isHoldOf (s.tag v)) then
      s.offer (.hold (BitVec.ofNat 8 (s.tag v)) (BitVec.ofNat 8 h))
    else s
  | none => s

/-- The voices for which the test of R67 asks for a HOLD. -/
def State.wantsHold (s : State) (v : Fin 8) : Bool :=
  ((s.voice v).holdWanted (s.cueOf (s.voice v))).isSome && s.isRun && !s.hasFrame (Frame.isHoldOf (s.tag v))

/-- H of every ANNOUNCED voice falls, then each is tested, in an order the spec does not give (R67). -/
def State.countHolds (s : State) : State :=
  let t := { s with voices := s.voices.map fun w => { w with announce := w.announce.countHold } }
  visit (fun v u => State.refreshHold u v) (slots.filter fun v => t.wantsHold v) t

/-- The station at a hold-unit boundary: penalty counts, H of ANNOUNCED voices and duck-list remainings fall by one (R29, R67,
R108). -/
def State.holdUnitBoundary (s : State) : State :=
  let t := s.settle
  let t := { t with tmb := { t.tmb with blocks := 0 } }
  if t.isLoading then t else t.countPenalties.countHolds.countDucks

/-- HOLD_UNIT_BOUNDARY (R67). It comes with every 10th block boundary and at no other (R1; log entry 4). -/
def execHoldUnitBoundary (s : State) : Host.Outcome State Fault Refusal :=
  .next (if s.tmb.unitDue then s.holdUnitBoundary else s)

end Sys2Proof.Machine
end

