-- ==== Sys2Proof/Machine/Dispatch.lean ====
section
/-! DEFINITION. One arm per command, each a direct call of its meaning. -/

namespace Sys2Proof.Machine

def exec (i : Instr) (s : State) : Host.Outcome State Fault Refusal :=
  match i with
  | .reset => Sys2Proof.Machine.execReset s
  | .configReadEnd bytes => Sys2Proof.Machine.execConfigReadEnd bytes s
  | .directoryReadEnd bytes => Sys2Proof.Machine.execDirectoryReadEnd bytes s
  | .sampleInstant => Sys2Proof.Machine.execSampleInstant s
  | .endOfData slot => Sys2Proof.Machine.execEndOfData slot s
  | .fadeStep slot => Sys2Proof.Machine.execFadeStep slot s
  | .duckStep slot => Sys2Proof.Machine.execDuckStep slot s
  | .blockBoundary levels => Sys2Proof.Machine.execBlockBoundary levels s
  | .playPress line => Sys2Proof.Machine.execPlayPress line s
  | .playRelease line => Sys2Proof.Machine.execPlayRelease line s
  | .sendPress line => Sys2Proof.Machine.execSendPress line s
  | .sendRelease line => Sys2Proof.Machine.execSendRelease line s
  | .requestExpiry which => Sys2Proof.Machine.execRequestExpiry which s
  | .deadAir pair => Sys2Proof.Machine.execDeadAir pair s
  | .overloadTrip pair => Sys2Proof.Machine.execOverloadTrip pair s
  | .recoveryWaitEnd pair => Sys2Proof.Machine.execRecoveryWaitEnd pair s
  | .attemptsForgiven pair => Sys2Proof.Machine.execAttemptsForgiven pair s
  | .joinWaitEnd => Sys2Proof.Machine.execJoinWaitEnd s
  | .holdUnitBoundary => Sys2Proof.Machine.execHoldUnitBoundary s
  | .penaltyEnd line => Sys2Proof.Machine.execPenaltyEnd line s
  | .duckEntryExpiry source tag => Sys2Proof.Machine.execDuckEntryExpiry source tag s
  | .readEnd bytes => Sys2Proof.Machine.execReadEnd bytes s
  | .busIdle => Sys2Proof.Machine.execBusIdle s
  | .frameBegin => Sys2Proof.Machine.execFrameBegin s
  | .arbitrationLost => Sys2Proof.Machine.execArbitrationLost s
  | .bitError => Sys2Proof.Machine.execBitError s
  | .rxDiscard bits => Sys2Proof.Machine.execRxDiscard bits s
  | .ownClaimComplete heard => Sys2Proof.Machine.execOwnClaimComplete heard s
  | .claim source group cue => Sys2Proof.Machine.execClaim source group cue s
  | .ownHeldComplete heard => Sys2Proof.Machine.execOwnHeldComplete heard s
  | .held source group => Sys2Proof.Machine.execHeld source group s
  | .release sender group => Sys2Proof.Machine.execRelease sender group s
  | .ownStartComplete heard => Sys2Proof.Machine.execOwnStartComplete heard s
  | .start source group cue tag emit depth hold => Sys2Proof.Machine.execStart source group cue tag emit depth hold s
  | .ownEndComplete heard => Sys2Proof.Machine.execOwnEndComplete heard s
  | .endFrame source tag group => Sys2Proof.Machine.execEnd source tag group s
  | .ownHoldComplete heard => Sys2Proof.Machine.execOwnHoldComplete heard s
  | .hold source tag hold => Sys2Proof.Machine.execHold source tag hold s
  | .stop sender target cue fade => Sys2Proof.Machine.execStop sender target cue fade s
  | .allStop sender target fade => Sys2Proof.Machine.execAllStop sender target fade s
  | .fire sender target cue => Sys2Proof.Machine.execFire sender target cue s
  | .arm sender groups => Sys2Proof.Machine.execArm sender groups s
  | .disarm sender groups => Sys2Proof.Machine.execDisarm sender groups s
  | .ask source target => Sys2Proof.Machine.execAsk source target s
  | .ownStatusComplete heard => Sys2Proof.Machine.execOwnStatusComplete heard s
  | .rxUnappliedFrame kind source payload => Sys2Proof.Machine.execRxUnappliedFrame kind source payload s
  | .rxOwnNumberFrame kind payload => Sys2Proof.Machine.execRxOwnNumberFrame kind payload s
  | .rxFreshStatusOwnNumber b0 b1 b2 b3 b4 b5 => Sys2Proof.Machine.execRxFreshStatusOwnNumber b0 b1 b2 b3 b4 b5 s
  | .rxStartBit => Sys2Proof.Machine.execRxStartBit s
  | .status source b0 b1 b2 b3 b4 b5 => Sys2Proof.Machine.execStatus source b0 b1 b2 b3 b4 b5 s

end Sys2Proof.Machine
end

