-- ==== Sys2Proof/Safety.lean ====
section
/-! DEFINITION. What the claims about the station speak of: what a step keeps, the bounds the spec gives, and states in which
nothing is waiting to be done. -/

namespace Sys2Proof.Machine

/-- What no operation on voices and no serving pass touches: the modes, the configuration, the cue table, the timebase, the duck
list, the output pairs, the wire and the receiver, the frame counter, the fresh bit and the commands that wait. -/
structure Kept (s t : State) : Prop where
  mode : t.mode = s.mode
  load : t.load = s.load
  join : t.join = s.join
  cfg : t.cfg = s.cfg
  configDefaults : t.configDefaults = s.configDefaults
  badRecords : t.badRecords = s.badRecords
  cues : t.cues = s.cues
  tmb : t.tmb = s.tmb
  ducks : t.ducks = s.ducks
  monitoring : t.monitoring = s.monitoring
  pgm : t.pgm = s.pgm
  floor : t.floor = s.floor
  tx : t.tx = s.tx
  rx : t.rx = s.rx
  idleCount : t.idleCount = s.idleCount
  echoed : t.echoed = s.echoed
  received : t.received = s.received
  fresh : t.fresh = s.fresh
  pending : t.pending = s.pending

/-- The configuration, the cue table and what LDR counted in them (R2, R6, R161). -/
structure SameSettings (s t : State) : Prop where
  cfg : t.cfg = s.cfg
  configDefaults : t.configDefaults = s.configDefaults
  badRecords : t.badRecords = s.badRecords
  cues : t.cues = s.cues

/-- How many entries of a queue are in flight. -/
def flights (q : List Entry) : Nat := q.countP fun e => e.inFlight

/-- How many STATUS entries a queue holds. -/
def statuses (q : List Entry) : Nat := q.countP fun e => e.frame.isStatus

/-- How many HOLD entries for a tag a queue holds. -/
def holds (tag : Nat) (q : List Entry) : Nat := q.countP fun e => e.frame.isHoldOf tag

/-- The laws of the transmit queue of R144: at most eight entries, at most one in flight, in order of kind code, at most one STATUS,
never a START and an END for one tag, and never two HOLDs for one tag. -/
structure QueueLaw (q : List Entry) : Prop where
  size : q.length ≤ Config.queueSize
  flight : flights q ≤ 1
  order : q.Pairwise fun a b => a.kind ≤ b.kind
  status : statuses q ≤ 1
  startEnd : ∀ tag : Byte, (∃ a ∈ q, a.frame.isStartOf tag.toNat = true) → ∀ b ∈ q, b.frame.isEndOf tag.toNat = false
  hold : ∀ tag : Byte, holds tag.toNat q ≤ 1

/-- What an owner may offer: an END for a tag whose START is in flight is owed instead (R66, R146), and a HOLD for a tag that has one
in the queue is not asked for (R67). -/
def State.mayOffer (s : State) : Frame → Prop
  | .endFrame t _ => s.hasFlying (Frame.isStartOf t.toNat) = false
  | .hold t _ => s.hasFrame (Frame.isHoldOf t.toNat) = false
  | _ => True

/-- The duck list holds at most 16 entries, no two with the same source and tag (R103). -/
structure DuckLaw (l : List DuckEntry) : Prop where
  size : l.length ≤ Config.duckSize
  keys : l.Pairwise fun a b => ¬(a.source = b.source ∧ a.tag = b.tag)

/-- The protection record of a pair: the attempt counter never exceeds 3, and a TRIPPED pair that will come back with one more
attempt has at most 2 (R123, R125, R126). -/
structure PairLaw (c : StationConfig) (p : Pair) : Prop where
  attempts : p.attempts ≤ Config.maxAttempts
  tripped : p.prot = .tripped → (c.recovery = .short ∨ c.recovery = .long) → p.attempts < Config.maxAttempts

/-- The bounds of R33, R103, R125 and R144 together; no duck entry bears the station's own number (R103). In LOADING both pairs are
NORMAL with no overload run (R130), both ports send 0 (R118) and the duck list is empty (R109). -/
structure Lawful (s : State) : Prop where
  queue : QueueLaw s.queue
  remote : s.remote.length ≤ Config.remoteSize
  ducks : DuckLaw s.ducks
  foreign : ∀ e ∈ s.ducks, e.source ≠ s.cfg.number
  pgm : PairLaw s.cfg s.pgm
  floor : PairLaw s.cfg s.floor
  loading : s.mode = .loading →
    s.pgm.prot = .normal ∧ s.pgm.run = 0 ∧ s.floor.prot = .normal ∧ s.floor.run = 0 ∧ s.ducks = [] ∧
      s.pgm.port = (0, 0) ∧ s.pgm.portNext = (0, 0) ∧ s.floor.port = (0, 0) ∧ s.floor.portNext = (0, 0)

/-- An entry in flight means that the receiver waits for idle: it is held so from the start bit of an own frame (R132; log entry 11),
through the error flag that follows a bit error (R139, R140), to the idle after it (R131). A frame that was dropped stays in the queue no
longer than its error flag (R140; log entry 34), so that none is there while a frame of another station is received. -/
def WireLaw (s : State) : Prop := s.rx ≠ .seekingIdle → ∀ e ∈ s.queue, e.inFlight = false

/-- The station is in SILENT, sends nothing and has nothing to send (R132, R169). -/
structure Mute (s : State) : Prop where
  mode : s.mode = .silent
  queue : s.queue = []
  tx : s.tx = .idle

/-- Nothing that an earlier boundary made due waits to be taken (log entry 2). -/
def State.settled (s : State) : Prop := s.settle = s

/-- No request is pending and no serving pass is owed. -/
structure NoRequests (s : State) : Prop where
  lines : ∀ n, (s.line n).request = none
  remote : s.remote = []
  passes : s.passesDue = 0

/-- Every entry of the duck list has time remaining (R103: 1 to 255 hold units). -/
def State.ducksLive (s : State) : Prop := ∀ e ∈ s.ducks, e.remaining ≠ 0

/-- The station is receiving a frame of another station, and `source` is the number of one (R131, R132, R137, R142, R143; log
entry 11). -/
structure Hears (s : State) (source : BitVec 5) : Prop where
  mode : s.mode ≠ .loading
  flying : s.flying = none
  rx : s.rx = .receiving
  zero : source.toNat ≠ 0
  last : source.toNat ≠ 31
  other : source.toNat ≠ s.cfg.number

/-- The queue has room for one more entry (R145). -/
def State.hasRoom (s : State) : Prop := s.queue.length < Config.queueSize

/-- An entry as it is placed in the queue (R145). -/
def newEntry (f : Frame) (key : Nat) : Entry := { frame := f, key := key, attempts := 0, inFlight := false }

/-- The queue of s as a sample instant finds it (R140; log entry 34): a frame that was dropped at its third bit error, if there is one, is
in it while the error flag lasts and out of it afterwards. -/
def QueueOverFlag (s : State) (q : List Entry) : Prop :=
  q = s.queue ∨ (∃ e ∈ s.queue, e.inFlight = true ∧ 3 ≤ e.attempts) ∧
    q = s.queue.filter fun e => !(e.inFlight && decide (3 ≤ e.attempts))

/-- What a release by fade or CUT makes of a voice (R56 to R59). -/
def Voice.released (w : Voice) (r : Rate) : Voice :=
  match w.state with
  | .free => w
  | .claiming => w
  | .priming => Voice.freed w.generation
  | .sounding => if r = .fade 0 ∨ w.level = 0 then Voice.freed w.generation else w.runDown r
  | .releasing =>
    if r.rank < (w.rate.getD .tail).rank then
      if r = .fade 0 ∨ w.level = 0 then Voice.freed w.generation else w.runDown r
    else w

/-- The same voice but for its fetch offset, which the arbiter advances when it grants the link (R16). -/
def SameButFetch (w u : Voice) : Prop := u = { w with fetchOffset := u.fetchOffset }

/-- What a voice just taken holds (R51), whatever has been granted to it since. -/
structure JustTaken (w u : Voice) (counter cue : Nat) (src : Source) (st : VoiceState) : Prop where
  generation : u.generation = (w.generation + 1) % 32
  state : u.state = st
  cue : u.cue = cue
  source : u.source = src
  startSeq : u.startSeq = counter
  playOffset : u.playOffset = 0
  buffer : u.buffer = []
  tail : u.tail = none
  level : u.level = 0 ∧ u.target = 0 ∧ u.duck = 0
  counters : u.vCount = 0 ∧ u.dCount = 0
  stopMark : u.stopMark = false

/-- An entry has been placed in a queue (R144, R145): behind the entries of its own kind and of the kinds before it, ahead of the
first of a larger kind code; the other entries stay in their order. -/
def Placed (q q' : List Entry) (e : Entry) : Prop :=
  ∃ a b, q = a ++ b ∧ q' = a ++ e :: b ∧ (∀ x ∈ a, x.kind ≤ e.kind) ∧ ∀ x ∈ b.head?, e.kind < x.kind

/-- A voice that nothing has acted on: its fetch offset may have advanced at a grant (R16), and a START of it that was evicted
leaves it LOCAL (R65, R149). -/
structure Untouched (w u : Voice) : Prop where
  rest : u = { w with fetchOffset := u.fetchOffset, announce := u.announce }
  announce : u.announce = w.announce ∨ w.announce = .queued ∧ u.announce = .localOnly

/-- The pending request of line n, for cue c, has been served from `base`: its voice, slot v, is PRIMING, it ended PLAYED and the
pointer is past its line (R36, R41, R51). -/
structure Served (base t : State) (n : Fin 8) (c : Nat) (v : Fin 8) : Prop where
  voice : JustTaken (base.voice v) (t.voice v) base.startCounter c (.line n) .priming
  request : (t.line n).request = none
  outcome : t.outcomes.get n.castSucc = some .played
  pointer : t.pointer = n.castSucc + 1

/-- What the entry of voice v into FREE does to its groups and to the transmit queue, from s to t, where no request is pending and no
other voice is freed. It is the holding voice of no group any more (R85). `q` is the queue as its announce state leaves it: an ANNOUNCED
voice queues its END in RUN, a QUEUED one has its waiting START cancelled or, where that is in flight, its END recorded as owed, and a
LOCAL one sends nothing (R66, R69, R146). Under hold AUTO the holding voice of a group has a RELEASE queued behind that in RUN, unless one
is in the queue (R73, R88). That the END comes before the RELEASE is offered is log entry 38. An END and a RELEASE are stated where the
queue has room for them. -/
def LeavesGroupsAndQueue (s t : State) (v : Fin 8) : Prop :=
  let tag := s.tag v
  let group := (s.cueOf (s.voice v)).group
  let holding := fun i : Fin 15 => (s.groups.get i).holdingVoice = some (v, tag)
  (∀ i, t.groups.get i = if holding i then { s.groups.get i with holdingVoice := none } else s.groups.get i) ∧
  ∃ q : List Entry,
    ((s.voice v).announce = .localOnly → q = s.queue ∧ t.owedEnd = s.owedEnd) ∧
    (∀ h, (s.voice v).announce = .announced h →
      (s.mode ≠ .run → q = s.queue ∧ t.owedEnd = s.owedEnd) ∧
      (s.mode = .run → s.hasRoom → s.hasFrame (Frame.isStartOf tag) = false →
        Placed s.queue q (newEntry (.endFrame (BitVec.ofNat 8 tag) (BitVec.ofNat 8 group)) s.cfg.number) ∧
          t.owedEnd = s.owedEnd)) ∧
    ((s.voice v).announce = .queued →
      (s.hasFlying (Frame.isStartOf tag) = true → q = s.queue ∧ t.owedEnd = some { tag := tag, group := group }) ∧
      (s.hasFlying (Frame.isStartOf tag) = false → s.hasWaiting (Frame.isStartOf tag) = true →
        q = s.queue.filter (fun e => !e.frame.isStartOf tag) ∧ t.owedEnd = s.owedEnd)) ∧
    ((∀ i, ¬holding i) → t.queue = q) ∧
    ∀ i, holding i → (∀ j, holding j → j = i) →
      let released := q.any fun e => e.frame.isReleaseOf (i.val + 1)
      ((s.cfg.groups.get i).manual = true ∨ s.mode ≠ .run ∨ released = true → t.queue = q) ∧
      ((s.cfg.groups.get i).manual = false → s.mode = .run → released = false → q.length < Config.queueSize →
        Placed q t.queue (newEntry (.release (BitVec.ofNat 8 (i.val + 1))) s.cfg.number))

/-- The loop points of a cue are in order, and a tail begins at a point where the loop ends (R5, R10). -/
def PathFits (m : PlayMode) (tail : Option Nat) : Prop :=
  match m with
  | .oneShot => True
  | .loop first last => first < last
  | .loopTail first last => first < last ∧ ∀ x, tail = some x → 0 < x ∧ loopIndex first last (x - 1) + 1 = last

/-- The reads that a chunk of n frames from path offset `o` is divided into (R16): they bring the frames of the path in its order, each
from its place in flash, no drop mark is set, and a new read begins only where the path jumps. -/
structure DividesChunk (q : Cue) (tail : Option Nat) (o n : Nat) (reads : List Read) : Prop where
  frames : (reads.flatMap fun r => (List.range r.count).map fun j => (r.first + j, r.address + j * q.format.bytes)) =
    (List.range n).map fun j => (o + j, q.start + pathIndex q.mode tail (o + j) * q.format.bytes)
  each : ∀ r ∈ reads, 1 ≤ r.count ∧ r.drop = false
  jumps : reads.IsChain fun _ x => pathIndex q.mode tail x.first ≠ pathIndex q.mode tail (x.first - 1) + 1

/-- A voice that needs a chunk by R12 is the one the arbiter grants (R15): it holds the fewest frames of all that do, and has the lowest
slot of those that hold as few. `w` gives the voices as they stand when the link falls IDLE. -/
structure IsGranted (s : State) (w : Fin 8 → Voice) (v : Fin 8) : Prop where
  needs : (w v).needsChunk (s.cueOf (s.voice v)) = true
  first : ∀ x, x ≠ v → (w x).needsChunk (s.cueOf (s.voice x)) = true →
    (w v).buffer.length < (w x).buffer.length ∨ (w v).buffer.length = (w x).buffer.length ∧ v < x

/-- The line after a press that is acted on (R26, R30): the accepted level is ACTIVE, the event is taken, the owed-release mark
is clear. -/
def Line.pressed (l : Line) : Line :=
  { l with accepted := l.accepted.map fun _ => true, changes := 0, event := none, owedRelease := false }

/-- The line after a release that is acted on (R26). -/
def Line.released (l : Line) : Line := { l with accepted := l.accepted.map fun _ => false, changes := 0, event := none }

/-- Line n has the only request of the station, and no pass is owed. -/
structure OnlyRequest (s : State) (n : Fin 8) (r : Request) : Prop where
  line : (s.line n).request = some r
  others : ∀ m, m ≠ n → (s.line m).request = none
  remote : s.remote = []
  passes : s.passesDue = 0

/-- A press of line n plays cue c: the station samples its lines, line n is a PLAY line of cue c outside PENALTY, and no request
is pending (R24, R27). -/
structure Presses (s : State) (n : Fin 8) (c : Byte) : Prop where
  mode : s.mode ≠ .loading
  action : (s.lineConfig n).action = .play c
  penalty : (s.line n).penalty = none
  requests : NoRequests s

/-- A request for cue c passes steps 1 to 5 with nothing released (R37 to R40): the cue is PRESENT with fields q, its group is armed
and not locked out, no voice of the cue is in the way unless it layers, and none of its group. -/
structure Admitted (s : State) (c : Nat) (q : Cue) : Prop where
  record : s.record c = .present q
  armed : s.armed q.group = true
  open_ : s.groupMode q.group = .firstWins → s.mode = .run ∧ s.holder q.group = none
  cue : (∀ u, (s.voice u).state.occupies = true → (s.voice u).cue ≠ c) ∨ q.retrigger = .layer
  group : q.group ≠ 0 → ∀ u, (s.voice u).state.occupies = true → (s.cueOf (s.voice u)).group ≠ q.group

/-- Voice v is the FREE voice of the lowest slot number (R41). -/
structure LowestFree (s : State) (v : Fin 8) : Prop where
  free : (s.voice v).state = .free
  lowest : ∀ u, u < v → (s.voice u).state ≠ .free

/-- Voice a is older than voice b by their start sequences (R50). -/
def Older (s : State) (a b : Fin 8) : Prop :=
  let d := ((s.voice b).startSeq + 65536 - (s.voice a).startSeq) % 65536
  1 ≤ d ∧ d ≤ 32767 ∨ (d = 0 ∨ d = 32768) ∧ a < b

/-- Voice v is the victim of a steal for a request of priority p (R42): PRIMING or SOUNDING and of lower priority, and of all such
voices of the lowest priority, the oldest among equals. That u is not older as well rules out only start sequences of 65536 and
more, which no run reaches. -/
structure IsVictim (s : State) (p : Nat) (v : Fin 8) : Prop where
  state : (s.voice v).state.fresh = true
  lower : s.priorityOf v < p
  best : ∀ u, u ≠ v → (s.voice u).state.fresh = true → s.priorityOf u < p →
    s.priorityOf v < s.priorityOf u ∨ s.priorityOf v = s.priorityOf u ∧ Older s v u ∧ ¬Older s u v

/-- A release rate that R48 and R56 give: a fade index is at most 7. -/
def Rate.legal : Rate → Prop
  | .fade k => k ≤ 7
  | .cut => True
  | .tail => True

/-- The counters of R1 as log entry 19 counts them: at most 48 sample instants in a block, at most 10 blocks in a hold unit, whose tenth
boundary leaves no instant counted, and a lamp cycle of 250 blocks. -/
structure Timebase.InPhase (t : Timebase) : Prop where
  samples : t.samples ≤ 48
  blocks : t.blocks ≤ 10
  unit : t.blocks = 10 → t.samples = 0
  lamp : t.lamp < 250

/-- The ranges of R1, R5, R48 to R50, R72, R143 and R162: the station's number, every generation, start sequence, release rate and last
winner, the frame counter, the fade indices of the PRESENT cues and the groups, and the counters of the timebase. -/
structure Ranged (s : State) : Prop where
  number : s.cfg.number ≤ 30
  generations : ∀ v, (s.voice v).generation < 32
  sequences : s.startCounter < 65536 ∧ ∀ v, (s.voice v).startSeq < 65536
  rates : ∀ v r, (s.voice v).rate = some r → r.legal
  winners : ∀ i, (s.groups.get i).lastWinner ≤ 30
  received : s.received < 256
  fades : ∀ c q, s.cues.get c = .present q → q.fadeIn ≤ 7 ∧ q.fadeOut ≤ 7
  chokes : ∀ i, (s.cfg.groups.get i).chokeFade ≤ 7
  timebase : s.tmb.InPhase

/-- The station after a frame of another station that it accepted and counted (R136, R143): the counter has risen modulo 256, the
echo was driven in JOINING and RUN only, and the station waits for idle. -/
def State.counted (s : State) : State :=
  { s with
    received := (s.received + 1) % 256
    echoed := decide (s.mode = .joining ∨ s.mode = .run)
    tx := .idle
    rx := .seekingIdle
    idleCount := 0 }

/-- The station after a frame of its own has completed (R141): the entry in flight has left the queue, the station waits for idle,
and an UNHEARD frame latches UNHEARD. -/
def State.sent (s : State) (heard : Bool) : State :=
  let t := { s with queue := s.queue.filter (fun e => !e.inFlight), tx := .idle, rx := .seekingIdle, idleCount := 0 }
  if heard = true then t else t.latch .unheard

/-- A frame completes, and `base` is the station before any owner acts on it (R141 to R143). -/
def Completes (s : State) (sender : Sender) (f : Frame) (base : State) : Prop :=
  match sender with
  | .own heard => (∃ e, s.flying = some e ∧ e.frame = f) ∧ base = s.sent heard
  | .other source => Hears s source ∧ base = s.counted

/-- The number of the station that sent a frame (R133). -/
def State.senderNumber (s : State) : Sender → Nat
  | .own _ => s.cfg.number
  | .other source => source.toNat

/-- A group number of a frame names the group at place i of the table (R72, R73). -/
def NamesGroup (g : Byte) (i : Fin 15) : Prop := g.toNat = i.val + 1

/-- Voice v is the station's only voice in CLAIMING for group g (R40). -/
structure OnlyClaimant (s : State) (g : Nat) (v : Fin 8) : Prop where
  state : (s.voice v).state = .claiming
  group : (s.cueOf (s.voice v)).group = g
  only : ∀ u, (s.voice u).state = .claiming → (s.cueOf (s.voice u)).group = g → u = v

/-- No voice of the station is in CLAIMING for group g. -/
def NoClaimant (s : State) (g : Nat) : Prop :=
  ∀ u, (s.voice u).state = .claiming → (s.cueOf (s.voice u)).group ≠ g

/-- A target addresses the station: its number, or 0 (R33, R35, R70, R152). -/
def State.isTarget (s : State) (target : Byte) : Prop := target.toNat = 0 ∨ target.toNat = s.cfg.number

/-- No STATUS of the station is in its queue, waiting or in flight (R147). -/
def NoStatus (q : List Entry) : Prop := ∀ e ∈ q, e.frame.isStatus = false

/-- What a STOP does to a voice it acts on, where no request is pending (R57 to R59, R70): a release by fade at the frame's index, tail
or not; a CLAIMING voice whose CLAIM is queued is withdrawn, WITHDRAWN. -/
def StoppedVoice (s base t : State) (k : Nat) (v : Fin 8) : Prop :=
  let w := s.voice v
  (w.state ≠ .claiming → Untouched (w.released (.fade k)) (t.voice v)) ∧
  (OnlyClaimant s (s.cueOf w).group v →
    (base.hasWaiting (Frame.isClaimOf (s.cueOf w).group) = true →
      t.voice v = Voice.freed w.generation ∧ t.hasFrame (Frame.isClaimOf (s.cueOf w).group) = false ∧
        (w.claimed = .openClaim → ∀ p, w.source.place = some p → t.outcomes.get p = some .withdrawn)) ∧
    (base.hasWaiting (Frame.isClaimOf (s.cueOf w).group) = false → Untouched w (t.voice v)))

end Sys2Proof.Machine
end

