-- ==== Sys2Proof/Certificates/Slice0/Obligations.lean ====
section
/-! DEFINITION. The statements about the station for the provers. -/

open Sys2Proof Sys2Proof.Machine

/-! ## The machine -/

/-- A step takes the command at the front of the queue and is `exec` of it with the queue's rest; on an empty queue nothing
changes (log entry 3). -/
def Obligations.StepRunsFrontCommand : Prop :=
  ∀ (c : Instr) (rest : List Instr) (s : State),
    step { s with pending := c :: rest } = exec c { s with pending := rest } ∧
      step { s with pending := [] } = .next { s with pending := [] }

/-- No well-formed command is refused and none faults; of READ_END's operand the length that fits the read under way is asked as well
(log entry 5). -/
def Obligations.WellFormedCommandsComplete : Prop :=
  ∀ (c : Instr) (s : State), c.wellFormed = true →
    (∀ bytes, c = .readEnd bytes → s.mode ≠ .loading →
      ∀ t r rest, s.link = some t → t.reads = r :: rest → bytes.length = r.count * t.format.bytes) →
    ∃ t, exec c s = .next t

/-- A station out of LOADING does not come back to it, and its configuration, cue table and BAD record count stay as they are, until the
next reset (R2, R6, R161). -/
def Obligations.SettingsFixedOutsideLoading : Prop :=
  ∀ (c : Instr) (s t : State), s.mode ≠ .loading → c ≠ .reset → exec c s = .next t → t.mode ≠ .loading ∧ SameSettings s t

/-- A station in SILENT with nothing queued stays in SILENT, queues nothing and drives nothing, whatever comes but a reset
(R132, R169). -/
def Obligations.SilentStationStaysMute : Prop :=
  ∀ (c : Instr) (s t : State), Mute s → c ≠ .reset → exec c s = .next t → Mute t

/-- Every step keeps the laws of the transmit queue, the sizes of the remote queue and the duck list with its keys distinct and none of
the station's own number, and the bound on recovery attempts (R33, R103, R125, R144); and that in LOADING both ports send 0, both pairs
are NORMAL with no overload run and the duck list is empty (R109, R118, R130). Every step keeps as well that the receiver waits for idle
while an entry of the queue is in flight (R131, R132, R139). That the receiver is held as waiting for idle while the station sends is log
entry 11; that a frame dropped at its third bit error counts as in flight until its error flag is over is log entry 34. -/
def Obligations.EveryStepKeepsTheBounds : Prop :=
  ∀ (s t : State), step s = .next t → (Lawful s → Lawful t) ∧ (WireLaw s → WireLaw t)

/-- Every step keeps the ranges of the station's number, of each generation, start sequence, release rate and last winner, of the frame
counter, of the fade indices in use and of the timebase's counters (R5, R48, R49, R50, R72, R143, R162). That the counters of the
timebase stand at 48 and 10 while a boundary is due is log entry 19. -/
def Obligations.EveryStepKeepsTheRanges : Prop :=
  ∀ (s t : State), Ranged s → step s = .next t → Ranged t

/-- What every step keeps holds right after reset; the frame counter is 0 then (R143). That the station's number is in its range before
the flash has been read is the model's choice (log entry 10: the settings are the defaults until then). -/
def Obligations.ResetMeetsTheBounds : Prop :=
  Lawful State.reset ∧ WireLaw State.reset ∧ Ranged State.reset ∧ State.reset.received = 0

/-- RESET abandons everything: each block holds its reset values (R1, R11, R14, R32, R33, R48, R93, R103, R119, R123, R131, R144, R154,
R158, R159), and LDR reads the configuration block from flash address 0 over one wire (R161). What the reset leaves in the model's own
`pending` and `choices` is log entry 25; that a FREE slot holds 0 for its cue number and start sequence, and in every statement in which a
voice is freed 0 for its play offset and fetch offset and no claimed request, is log entry 39. -/
def Obligations.ResetValues : Prop :=
  ∀ s : State, ∃ t, exec .reset s = .next t ∧
    t.mode = .loading ∧ t.flashRead? = some { address := 0, bytes := 128, wide := false } ∧
    t.tmb = { divider := 0, samples := 0, blocks := 0, lamp := 0 } ∧
    (∀ v, t.voice v = Voice.freed 0) ∧ t.startCounter = 0 ∧ t.releasing = [] ∧ t.owedEnd = none ∧ t.link = none ∧
    (∀ n, (t.line n).accepted = none ∧ (t.line n).request = none ∧ (t.line n).penalty = none ∧ (t.line n).owedRelease = false) ∧
    t.remote = [] ∧ t.pointer = 0 ∧
    (∀ i, (t.groups.get i).holder = none ∧ (t.groups.get i).lastWinner = 0 ∧ (t.groups.get i).holdingVoice = none ∧
      (t.groups.get i).holdingLine = none) ∧
    t.ducks = [] ∧
    (∀ o, (t.pair o).prot = .normal ∧ (t.pair o).attempts = 0 ∧ (t.pair o).run = 0 ∧ (t.pair o).normalTime = 0 ∧
      (t.pair o).clips = 0 ∧ (t.pair o).peak = 0 ∧ (t.pair o).deadAir = 0 ∧ (t.pair o).port = (0, 0)) ∧
    t.queue = [] ∧ t.tx = .idle ∧ t.rx = .off ∧ t.idleCount = 0 ∧ t.received = 0 ∧
    (∀ f, t.flag f = false ∧ t.newMark f = false) ∧ t.fresh = true ∧ t.pending = s.pending ∧ t.choices = s.choices

/-! ## Start-up -/

/-- The configuration block is the 128 bytes at flash address 0, read over one wire. One that agrees is used; one that does not is read
once more; after a second failure the defaults are used and CONFIG_DEFAULTS is set (R72, R161, R162). -/
def Obligations.ConfigurationIsTakenOrDefaulted : Prop :=
  ∀ (bytes : List Byte) (s : State), bytes.length = 128 → s.mode = .loading →
    (s.load ≠ .directory → s.flashRead? = some { address := 0, bytes := 128, wide := false }) ∧
    (s.load ≠ .directory → configAgrees bytes = true →
      exec (.configReadEnd bytes) s =
        .next
          { s with
            cfg := decodeConfig bytes
            configDefaults := configFieldDefaulted bytes
            groups := (decodeConfig bytes).groups.map GroupView.reset
            load := .directory }) ∧
    (s.load = .config → configAgrees bytes = false →
      exec (.configReadEnd bytes) s = .next { s with load := .configAgain }) ∧
    (s.load = .configAgain → configAgrees bytes = false →
      exec (.configReadEnd bytes) s =
        .next
          { s with
            cfg := StationConfig.default
            configDefaults := true
            groups := StationConfig.default.groups.map GroupView.reset
            load := .directory })

/-- Every setting of a used block is read from the place and by the code that 10.3 gives it, with its clamp, and lies in the range its
owner accepts; a code that names no value takes the default of its field and is what sets CONFIG_DEFAULTS (R162, R172, 10.3). -/
def Obligations.DecodedSettingsAreInRange : Prop :=
  ∀ b : List Byte,
    let c := decodeConfig b
    let two := fun i : Nat => natAt b i + 256 * natAt b (i + 1)
    let group := fun i : Fin 15 => byteAt b (16 + i.val)
    let line := fun (n : Fin 8) (k : Nat) => byteAt b (32 + 6 * n.val + k)
    let action := fun n : Fin 8 => (line n 0).extractLsb' 0 3
    let early := fun n : Fin 8 => (line n 0).extractLsb' 5 2
    (c.number ≤ 30 ∧ 1 ≤ c.debounce ∧ c.debounce ≤ 16 ∧ c.hot ≤ 32768 ∧ c.silence ≤ 32768 ∧ 1 ≤ c.deadAirTime ∧
      c.deadAirTime ≤ 255 ∧ c.overloadK ≤ 96 ∧ c.attack ≤ 7 ∧ c.release ≤ 7 ∧ c.trimPgm ≤ 255 ∧ c.trimFloor ≤ 255 ∧
      c.expiry ≤ 255 ∧ c.penaltyTime ≤ 255 ∧ ∀ i, (c.groups.get i).chokeFade ≤ 7) ∧
    (c.number = (if natAt b 0 % 32 = 31 then 0 else natAt b 0 % 32) ∧ c.wide = !(byteAt b 1).getLsbD 0 ∧
      c.rotating = (byteAt b 1).getLsbD 1 ∧
      c.debounce = (if natAt b 2 = 0 then 1 else if natAt b 2 ≤ 16 then natAt b 2 else 5) ∧
      c.expiry = natAt b 3 ∧ c.penaltyTime = natAt b 4 ∧ c.attack = natAt b 5 % 8 ∧ c.release = natAt b 5 / 16 % 8 ∧
      c.trimPgm = natAt b 6 ∧ c.trimFloor = natAt b 7 ∧ c.hot = min (two 8) 32768 ∧ c.silence = min (two 10) 32768 ∧
      c.deadAirTime = max (natAt b 12) 1 ∧ c.overloadK = min (natAt b 13) 96 ∧
      c.recovery =
        (if natAt b 14 % 4 = 0 then .off else if natAt b 14 % 4 = 1 then .short else if natAt b 14 % 4 = 2 then .long else .endless)) ∧
    (∀ i : Fin 15,
      (c.groups.get i).mode =
        (if (group i).toNat % 4 = 1 then .lastWins else if (group i).toNat % 4 = 2 then .firstWins else .none) ∧
      (c.groups.get i).manual = (group i).getLsbD 2 ∧ (c.groups.get i).chokeFade = ((group i).extractLsb' 3 3).toNat ∧
      (c.groups.get i).armedAtStart = (group i).getLsbD 6) ∧
    (∀ n : Fin 8,
      (c.lines.get n).gate = (line n 0).getLsbD 3 ∧ (c.lines.get n).activeHigh = (line n 0).getLsbD 4 ∧
      (c.lines.get n).action =
        (if action n = 0 then .play (line n 2)
        else if action n = 1 then .sendFire (line n 2) (line n 3) ((line n 4).extractLsb' 0 3)
        else if action n = 2 then .sendStop (line n 2) (line n 3) ((line n 4).extractLsb' 0 3)
        else if action n = 3 then .sendArm (line n 2 ++ line n 3)
        else if action n = 4 then .sendDisarm (line n 2 ++ line n 3)
        else if action n = 5 then .sendRelease (line n 2)
        else .play (BitVec.ofNat 8 n.val)) ∧
      (c.lines.get n).early = (if early n = 1 then .latch else if early n = 2 then .penalty else .discard) ∧
      (c.lines.get n).tally =
        (if (line n 1).extractLsb' 0 2 = 0 then .voice
        else if (line n 1).extractLsb' 0 2 = 1 then .holder
        else if (line n 1).extractLsb' 0 2 = 2 ∧ (line n 1).toNat / 16 ≠ 0 then .group ((line n 1).toNat / 16)
        else .off)) ∧
    (configFieldDefaulted b = true ↔
      16 < natAt b 2 ∨ (∃ i, (group i).toNat % 4 = 3) ∨ ∃ n, 6 ≤ (action n).toNat ∨ early n = 3)

/-- The three tests of R4 in their order, and the conditions of R5, read from the record's bytes by 10.2; and each field of a PRESENT
record is read from the place and by the code that 10.2 gives it. -/
def Obligations.RecordsAreClassified : Prop :=
  ∀ b : List Byte,
    (natAt b 0 = 255 → classifyRecord b = .absent) ∧
    (natAt b 0 ≠ 255 → checkAgrees b 30 = false → classifyRecord b = .bad) ∧
    (natAt b 0 ≠ 255 → checkAgrees b 30 = true →
      let length := littleAt b 4 3 % 2 ^ 23
      let loopStart := littleAt b 7 3 % 2 ^ 23
      let loopEnd := littleAt b 10 3 % 2 ^ 23
      let mode := fieldAt b 0 2 1
      (classifyRecord b = .bad ↔
        length = 0 ∨ natAt b 13 = 0 ∨ littleAt b 1 3 % 2 = 1 ∨
        16777216 < littleAt b 1 3 + length * (if fieldAt b 0 0 0 = 0 then 2 else 4) ∨
        ((mode = 1 ∨ mode = 2) ∧ (loopEnd ≤ loopStart ∨ length < loopEnd)) ∨
        mode = 3 ∨ fieldAt b 0 4 3 = 3 ∨ 7 < fieldAt b 16 3 0 ∨ 7 < fieldAt b 16 7 4 ∨ 15 < natAt b 14 ∨ 7 < natAt b 15) ∧
      (classifyRecord b ≠ .bad → ∃ q, classifyRecord b = .present q)) ∧
    ∀ q, classifyRecord b = .present q →
      let three := fun i : Nat => natAt b i + 256 * natAt b (i + 1) + 65536 * natAt b (i + 2)
      let code := fun place : Nat => ((byteAt b 0).extractLsb' place 2).toNat
      q.start = three 1 ∧ q.length = three 4 % 8388608 ∧ (q.format = .stereo ↔ (byteAt b 0).getLsbD 0 = true) ∧
      q.mode =
        (if code 1 = 0 then .oneShot
        else if code 1 = 1 then .loop (three 7 % 8388608) (three 10 % 8388608)
        else .loopTail (three 7 % 8388608) (three 10 % 8388608)) ∧
      q.route = (if code 3 = 0 then .pgm else if code 3 = 1 then .floor else .both) ∧
      q.retrigger = (if code 5 = 0 then .restart else if code 5 = 1 then .ignore else if code 5 = 2 then .toggle else .layer) ∧
      q.level = natAt b 13 ∧ q.group = natAt b 14 ∧ q.priority = natAt b 15 ∧ q.fadeIn = natAt b 16 % 16 ∧
      q.fadeOut = natAt b 16 / 16 ∧ q.emit = (byteAt b 17).extractLsb' 0 4 ∧ q.listen = (byteAt b 17).extractLsb' 4 4 ∧
      q.depth = natAt b 18

/-- The directory area is the 8160 bytes from flash address 4096, read over the link as configured; its read fills the table, counts the
BAD records and ends LOADING (R6, R163, R164). -/
def Obligations.DirectoryReadEndsLoading : Prop :=
  ∀ (bytes : List Byte) (s : State), bytes.length = 8160 → s.mode = .loading → s.load = .directory →
    s.flashRead? = some { address := 4096, bytes := 8160, wide := s.cfg.wide } ∧
    ∃ t, exec (.directoryReadEnd bytes) s = .next t ∧
      (∀ c : Fin 255, t.cues.get c = classifyRecord ((bytes.drop (32 * c.val)).take 32)) ∧
      t.badRecords = t.cues.items.countP (fun r => decide (r = .bad)) ∧
      t =
        { s with
          cues := t.cues
          badRecords := t.badRecords
          mode := if s.cfg.number = 0 then .silent else .joining
          join := if s.cfg.number = 0 then .done else .notOffered
          rx := .seekingIdle
          idleCount := 0 }

/-- At the 20th boundary of the join wait the station enters RUN, and nothing else changes; before it the station stays in JOINING
(R165, R166). -/
def Obligations.JoinWaitEndsInRun : Prop :=
  ∀ (s : State) (n : Nat), s.mode = .joining → s.join = .waiting n →
    exec .joinWaitEnd s = .next (if 20 ≤ n then { s with mode := .run, join := .done } else s)

/-! ## Sound -/

/-- What a sample instant does where nothing is due and no voice ends at it: each SOUNDING or RELEASING voice plays the head of its buffer
or underruns, V and D step, and the pairs are mixed and measured (R13, R21, R95, R96, R101, R110, R113 to R119, R121). D is compared with
D* (R99): a direction that is not the recorded one starts the count again; the count rises by one at each instant at which D differs from
D*, and D moves one code when it reaches 2^(k+2) for the attack or release index k; at index 0 D is D* at once (R101). That the direction
is AT_REST as soon as D has moved to D* is log entry 16. A RELEASING voice may fade or be cut, so long as its V stays above 0. A FADE_STEP
or DUCK_STEP of this instant that came before it is not taken twice (log entry 7). The states of the voices, the lines, the groups and the
queue are as they were, but that a frame dropped at its third bit error may leave the queue, its error flag being over (R140; log entry
34). In LOADING the instant is counted and the ports form frames of 0, and nothing else changes (R1, R118, R160). No instant comes while a
boundary of the last one is due (R1; log entry 19). -/
def Obligations.SampleInstantPlaysEveryVoice : Prop :=
  ∀ s : State,
    (48 ≤ s.tmb.samples ∨ 10 ≤ s.tmb.blocks → exec .sampleInstant s = .next s) ∧
    (s.mode = .loading → s.tmb.samples < 48 → s.tmb.blocks < 10 → s.settled →
      exec .sampleInstant s =
        .next
          { s with
            tmb := { s.tmb with divider := 0, samples := s.tmb.samples + 1 }
            pgm := { s.pgm with port := s.pgm.portNext, portNext := (0, 0) }
            floor := { s.floor with port := s.floor.portNext, portNext := (0, 0) } }) ∧
    (s.mode ≠ .loading → s.tmb.samples < 48 → s.tmb.blocks < 10 → s.settled →
    let level := fun w : Voice => if w.vDone = true then w.level else (w.stepV (s.cueOf w)).level
    (∀ v, (s.voice v).atEnd (s.cueOf (s.voice v)) = false) →
    (∀ v, (s.voice v).state = .releasing → (s.voice v).rate = some .tail ∨ level (s.voice v) ≠ 0) →
    ∃ t, exec .sampleInstant s = .next t ∧
      (∀ v,
        let w := s.voice v
        let u := t.voice v
        let target := duckTarget s v
        let b := w.dBefore.getD { duck := w.duck, dCount := w.dCount, dDir := w.dDir }
        let dir : Direction := if b.duck < target then .rising else if target < b.duck then .falling else .atRest
        let count := if dir = b.dDir then b.dCount else 0
        let k := if b.duck < target then s.cfg.attack else s.cfg.release
        (w.state.plays = true → u.playOffset = w.playOffset + 1 ∧ u.buffer = w.buffer.tail) ∧
        (w.state.plays = true → w.buffer = [] → t.flag .underrun = true ∧ u.playOffset ≤ u.fetchOffset) ∧
        (w.state.plays = false → u.playOffset = w.playOffset ∧ u.buffer = w.buffer) ∧
        (u.level = level w ∧ u.vCount = (if w.vDone = true then w.vCount else (w.stepV (s.cueOf w)).vCount) ∧ u.vDone = false) ∧
        (w.state.active = true →
          (b.duck = target → u.duck = target ∧ u.dDir = .atRest ∧ u.dCount = count) ∧
          (b.duck ≠ target → k = 0 → u.duck = target ∧ u.dDir = .atRest ∧ (dir ≠ b.dDir → u.dCount = 0)) ∧
          (b.duck ≠ target → k ≠ 0 → count + 1 < 2 ^ (k + 2) → u.duck = b.duck ∧ u.dDir = dir ∧ u.dCount = count + 1) ∧
          (b.duck ≠ target → k ≠ 0 → 2 ^ (k + 2) ≤ count + 1 →
            u.dCount = 0 ∧ (b.duck < target → u.duck = b.duck + 1) ∧ (target < b.duck → u.duck = b.duck - 1) ∧
              u.dDir = if u.duck = target then .atRest else dir)) ∧
        u.dBefore = none ∧
        u.state = w.state ∧ u.cue = w.cue ∧ u.source = w.source ∧ u.generation = w.generation ∧ u.target = w.target ∧
          u.rate = w.rate ∧ u.announce = w.announce ∧ u.tail = w.tail ∧ u.startSeq = w.startSeq) ∧
      (∀ o,
        let p := s.pair o
        let x := t.pair o
        let product := fun (side : SampleFrame → Int) (v : Fin 8) =>
          let w := s.voice v
          let u := t.voice v
          let below := u.duck + (255 - s.cfg.trim o)
          if w.state.plays && (s.cueOf w).route.has o then
            (match w.buffer with
            | f :: _ => side f
            | [] => 0) * (gain (if below ≤ u.level then u.level - below else 0) : Int)
          else 0
        let left := saturated (rounded x.accL)
        let right := saturated (rounded x.accR)
        x.accL = (slots.map (product fun f => f.left)).sum ∧ x.accR = (slots.map (product fun f => f.right)).sum ∧
        x.port = p.portNext ∧ x.portNext = (if p.prot = .normal then (left, right) else (0, 0)) ∧
        x.clips =
          (if s.monitoring = true then
            p.clips + (if left = rounded x.accL then 0 else 1) + (if right = rounded x.accR then 0 else 1)
          else p.clips) ∧
        x.peak = (if s.monitoring = true then max p.peak (max left.natAbs right.natAbs) else p.peak) ∧
        (x.allNormal = true ↔ p.allNormal = true ∧ p.prot = .normal) ∧
        (x.allSounding = true ↔
          p.allSounding = true ∧ ∃ v, (s.voice v).state = .sounding ∧ (s.cueOf (s.voice v)).route.has o = true) ∧
        x.prot = p.prot ∧ x.attempts = p.attempts ∧ x.run = p.run ∧ x.wait = p.wait ∧ x.normalTime = p.normalTime ∧
          x.deadAir = p.deadAir) ∧
      t.tmb = { s.tmb with divider := 0, samples := s.tmb.samples + 1 } ∧
      t.mode = s.mode ∧ t.cfg = s.cfg ∧ t.cues = s.cues ∧ t.lines = s.lines ∧ t.remote = s.remote ∧ t.groups = s.groups ∧
      QueueOverFlag s t.queue ∧ t.ducks = s.ducks ∧ t.releasing = s.releasing ∧ t.owedEnd = s.owedEnd ∧
      t.startCounter = s.startCounter)

/-- A voice whose V reaches 0 in a fade or cut at a sample instant is FREE after it, with its generation kept, and out of the releasing
list (R61, R63, R97); where no other voice runs out with it, its groups and the transmit queue are left as R66, R85, R88 and R146 give; a
frame dropped at its third bit error may leave the queue first, its error flag being over (R140; log entry 34). -/
def Obligations.FadedOutVoiceIsFreed : Prop :=
  ∀ (s : State) (v : Fin 8), s.mode ≠ .loading → s.tmb.samples < 48 → s.tmb.blocks < 10 → s.settled → NoRequests s →
    let after := fun u => ((s.voice u).tick (s.cueOf (s.voice u)) s.cfg (duckTarget s u)).level
    (∀ u, (s.voice u).atEnd (s.cueOf (s.voice u)) = false) →
    (s.voice v).state = .releasing → (s.voice v).rate ≠ some .tail → after v = 0 →
    ∃ t, exec .sampleInstant s = .next t ∧ t.voice v = Voice.freed (s.voice v).generation ∧ v ∉ t.releasing ∧
      ((∀ u, u ≠ v → (s.voice u).state = .releasing → (s.voice u).rate = some .tail ∨ after u ≠ 0) →
        ∃ q, QueueOverFlag s q ∧ LeavesGroupsAndQueue { s with queue := q } t v)

/-- At a fade index k from 1 to 7 the counter rises by one at each sample instant at which V differs from its target, V moves one
code when the counter reaches 2^(k+2), and at the target the counter stays at 0; so a rise from a fresh counter gains one code each
2^(k+2) instants and stops at the target, and a fall loses codes alike (R95). -/
def Obligations.FadeMovesOneCodePerStepLength : Prop :=
  ∀ (w : Voice) (q : Cue) (k : Nat), w.vRate q = some (.fade k) → 1 ≤ k → k ≤ 7 →
    (w.level = w.target → (w.stepV q).level = w.level ∧ (w.stepV q).vCount = 0) ∧
    (w.level ≠ w.target → w.vCount + 1 < 2 ^ (k + 2) →
      (w.stepV q).level = w.level ∧ (w.stepV q).vCount = w.vCount + 1) ∧
    (w.level ≠ w.target → 2 ^ (k + 2) ≤ w.vCount + 1 → (w.stepV q).vCount = 0 ∧
      (w.level < w.target → (w.stepV q).level = w.level + 1) ∧ (w.target < w.level → (w.stepV q).level = w.level - 1)) ∧
    (w.vCount = 0 → ∀ n : Nat,
      (w.level ≤ w.target → ((fun x : Voice => x.stepV q)^[n] w).level = min w.target (w.level + n / 2 ^ (k + 2))) ∧
      (w.target ≤ w.level → ((fun x : Voice => x.stepV q)^[n] w).level = max w.target (w.level - n / 2 ^ (k + 2))))

/-- At the CUT rate V falls by 8 codes at each sample instant, or by V if V is less than 8, and the counter stays at 0, so a cut
from V reaches 0 at the ceil(V / 8)-th instant and no sooner (R96). -/
def Obligations.CutReachesZeroInEighths : Prop :=
  ∀ (w : Voice) (q : Cue) (n : Nat), w.state = .releasing → w.rate = some .cut → w.vCount = 0 →
    ((fun x : Voice => x.stepV q)^[n] w).level = w.level - 8 * n ∧ ((fun x : Voice => x.stepV q)^[n] w).vCount = 0 ∧
      (((fun x : Voice => x.stepV q)^[n] w).level = 0 ↔ ceilDiv w.level 8 ≤ n)

/-- FADE_STEP: V moves one code toward its target and its counter is set to 0 (R95). That the step is then not made again at the
sample instant that completes it is log entry 7. -/
def Obligations.FadeStepMovesOneCode : Prop :=
  ∀ (s : State) (v : Fin 8) (k : Nat),
    ((s.voice v).state = .sounding ∧ (s.cueOf (s.voice v)).fadeIn = k ∨
      (s.voice v).state = .releasing ∧ (s.voice v).rate = some (.fade k)) →
    1 ≤ k → (s.voice v).level ≠ (s.voice v).target → (s.voice v).vCount + 1 = 2 ^ (k + 2) → (s.voice v).vDone = false →
    exec (.fadeStep v) s =
      .next (s.setVoice v
        { s.voice v with
          level := if (s.voice v).level < (s.voice v).target then (s.voice v).level + 1 else (s.voice v).level - 1
          vCount := 0
          vDone := true })

/-- DUCK_STEP: D moves one code toward the largest depth that applies, at the attack index while rising and the release index while
falling, and its counter is set to 0 (R99, R101). That what stood before is kept, for the sample instant to which the step belongs to
begin from, is log entry 7. -/
def Obligations.DuckStepMovesOneCode : Prop :=
  ∀ (s : State) (v : Fin 8),
    let w := s.voice v
    let target := duckTarget s v
    w.state.active = true → w.dBefore = none →
    (w.duck < target ∧ w.dDir = .rising ∧ 1 ≤ s.cfg.attack ∧ w.dCount + 1 = 2 ^ (s.cfg.attack + 2) ∨
      target < w.duck ∧ w.dDir = .falling ∧ 1 ≤ s.cfg.release ∧ w.dCount + 1 = 2 ^ (s.cfg.release + 2)) →
    ∃ d dir,
      exec (.duckStep v) s =
        .next (s.setVoice v
          { w with
            duck := d
            dCount := 0
            dDir := dir
            dBefore := some { duck := w.duck, dCount := w.dCount, dDir := w.dDir } }) ∧
      (w.duck < target → d = w.duck + 1) ∧ (target < w.duck → d = w.duck - 1) ∧ (dir = .atRest ↔ d = target)

/-- D* is the largest depth among the duck-list entries whose classes meet the voice's listen set and the voice's fellow voices in
PRIMING, SOUNDING or RELEASING whose emit set does, and 0 when there is none (R99). Stated where every entry has time remaining, as R103
says of the list, and no voice is at end of data, where it enters FREE at once (R55). -/
def Obligations.DuckTargetIsLargestDepth : Prop :=
  ∀ (s : State) (v : Fin 8), s.ducksLive → (∀ u, (s.voice u).atEnd (s.cueOf (s.voice u)) = false) →
    let listen := (s.cueOf (s.voice v)).listen
    let applies := fun d : Nat =>
      (∃ e ∈ s.ducks, e.classes &&& listen ≠ 0 ∧ e.depth = d) ∨
        ∃ u : Fin 8, u ≠ v ∧ (s.voice u).state.active = true ∧ (s.cueOf (s.voice u)).emit &&& listen ≠ 0 ∧
          (s.cueOf (s.voice u)).depth = d
    (∀ d, applies d → d ≤ duckTarget s v) ∧ (applies (duckTarget s v) ∨ duckTarget s v = 0)

/-- The gain table: G(0) is 0; for E from 1 to 255, G(E) is the integer nearest to 32768 × 2^((E − 255)/16), stated by sixteenth
powers as 2G − 1 < 2 × value < 2G + 1; and G never decreases (R111). -/
def Obligations.GainIsNearestInteger : Prop :=
  gain 0 = 0 ∧
    (∀ e, 1 ≤ e → e ≤ 255 →
      (2 * gain e - 1) ^ 16 * 2 ^ (255 - e) < 2 ^ 256 ∧ 2 ^ 256 < (2 * gain e + 1) ^ 16 * 2 ^ (255 - e)) ∧
    (∀ e f, e ≤ f → f ≤ 255 → gain e ≤ gain f) ∧ (∀ e, e ≤ 255 → gain e ≤ 32768) ∧ gain 255 = 32768 ∧ gain 24 = 1 ∧ gain 25 = 2

/-- The mix of a channel: the sum fits the 36-bit accumulator whatever eight voices play (R115); it is rounded to the nearest integer
of 32768ths, halves upward: y is floor((sum + 16384) / 32768) (R116); a value outside −32768 to 32767 becomes the nearer end, and that
is a clip (R117). The port then sends the two samples in 64 bit times, left first, each most significant bit first in the upper 16 of
its 32 bit times with zeros after it, and the word clock is low in the left half and high in the right (R118). -/
def Obligations.MixSumsRoundsAndSaturates : Prop :=
  (∀ (ps : List Playing) (o : OutPair) (m : Nat), ps.length ≤ 8 →
    (∀ p ∈ ps, ∀ f, p.frame = some f → -32768 ≤ f.left ∧ f.left ≤ 32767 ∧ -32768 ≤ f.right ∧ f.right ≤ 32767) →
    (∀ p ∈ ps, p.level ≤ 255) →
    -2 ^ 33 ≤ channelSum ps o m SampleFrame.left ∧ channelSum ps o m SampleFrame.left ≤ 8 * 32767 * 32768 ∧
      -2 ^ 33 ≤ channelSum ps o m SampleFrame.right ∧ channelSum ps o m SampleFrame.right ≤ 8 * 32767 * 32768) ∧
  (∀ sum : Int,
    (32768 * rounded sum ≤ sum + 16384 ∧ sum + 16384 < 32768 * (rounded sum + 1)) ∧
    ∀ y : Int,
      (32767 < y → saturated y = 32767 ∧ clipped y = 1) ∧ (y < -32768 → saturated y = -32768 ∧ clipped y = 1) ∧
        (-32768 ≤ y → y ≤ 32767 → saturated y = y ∧ clipped y = 0)) ∧
  ∀ l r : BitVec 16,
    portLines (l.toInt, r.toInt) = (List.range 64).map fun i =>
      (if i < 16 then l.getLsbD (15 - i) else if 32 ≤ i ∧ i < 48 then r.getLsbD (47 - i) else false, decide (32 ≤ i))

/-- At end of data a playing voice enters FREE at whatever level it has (R55, R61, R63): the slot keeps its generation, leaves the
releasing list and abandons its transfer (R23); its groups and the transmit queue are left as R66, R85, R88 and R146 give, and a voice
that is LOCAL and holds no group changes nothing else. A pass then runs, in which a request that waits takes the freed slot, if there is
no lower one (R36, R41). -/
def Obligations.EndOfDataFreesTheVoice : Prop :=
  ∀ (s : State) (v : Fin 8), (s.voice v).state.plays = true →
    (∀ n, (s.voice v).pathEnd (s.cueOf (s.voice v)) = some n → n ≤ (s.voice v).playOffset) →
    (s.voice v).pathEnd (s.cueOf (s.voice v)) ≠ none →
    let freed :=
      { s with
        voices := s.voices.set v (Voice.freed (s.voice v).generation)
        releasing := s.releasing.filter fun x => decide (x ≠ v)
        link := abandonFor v s.link }
    let alone := (s.voice v).announce = .localOnly ∧ ∀ i, (s.groups.get i).holdingVoice ≠ some (v, s.tag v)
    (NoRequests s →
      (alone → exec (.endOfData v) s = .next freed) ∧
      ∃ t, exec (.endOfData v) s = .next t ∧ t.voice v = Voice.freed (s.voice v).generation ∧
        (∀ u, u ≠ v → Untouched (s.voice u) (t.voice u)) ∧ LeavesGroupsAndQueue s t v ∧
        t =
          { freed with
            voices := t.voices
            groups := t.groups
            queue := t.queue
            owedEnd := t.owedEnd
            flags := t.flags }) ∧
    ∀ n r q, OnlyRequest s n r → alone → (∀ u, u ≠ v → (s.voice u).state ≠ .free) → Admitted freed r.cue q →
      s.groupMode q.group ≠ .firstWins →
      ∃ t, exec (.endOfData v) s = .next t ∧ Served freed t n r.cue v

/-- READ_END, of the read that heads the transfer, over the link as configured (R16, R17), in the format of the cue it was formed for
(log entry 35). Its frames join the voice's buffer in path order, but for those below its play offset (R18), and a PRIMING voice that
then holds 256 frames or its whole path enters SOUNDING with the cue's level as its target, its V at once at it for a fade-in index of 0
(R19, R54, R98). A read whose transfer is abandoned, whose drop mark is set, or whose slot has been taken again lands nothing (R18,
R23). The next read whose drop mark is clear is begun, unless the transfer is abandoned (R17); where there is none the link falls IDLE
and is granted to the voice that needs a chunk and holds the fewest frames, the lowest slot of several (R15), whose transfer divides the
next 256 frames of its path, or all that are left, into reads where the path jumps in flash, and its fetch offset advances by as many
(R16). -/
def Obligations.ReadEndLandsOrDropsTheFrames : Prop :=
  ∀ (s : State) (t : Transfer) (r : Read) (rest : List Read) (bytes : List Byte), s.mode ≠ .loading → s.link = some t →
    t.reads = r :: rest → bytes.length = r.count * t.format.bytes →
    s.flashRead? = some { address := r.address, bytes := r.count * t.format.bytes, wide := s.cfg.wide } ∧
    ∃ u, exec (.readEnd bytes) s = .next u ∧ Kept s u ∧ u.queue = s.queue ∧ u.lines = s.lines ∧
      (∀ v, v ≠ t.slot → SameButFetch (s.voice v) (u.voice v)) ∧
      (t.abandon = false → r.drop = false → (s.voice t.slot).generation = t.generation →
        let w := s.voice t.slot
        let q := s.cueOf w
        let x := u.voice t.slot
        let frames := (framesOf t.format bytes).drop (w.playOffset - r.first)
        x.buffer = w.buffer ++ frames ∧ x.playOffset = w.playOffset ∧ x.cue = w.cue ∧
        (w.state ≠ .priming → SameButFetch { w with buffer := w.buffer ++ frames } x) ∧
        (w.state = .priming →
          (256 ≤ x.buffer.length ∨ (∃ n, w.pathEnd q = some n ∧ n ≤ w.playOffset + x.buffer.length) →
            x.state = .sounding ∧ x.target = q.level ∧ (q.fadeIn = 0 → x.level = q.level) ∧
              (q.fadeIn ≠ 0 → x.level = w.level) ∧ x.vCount = 0) ∧
          (x.buffer.length < 256 → (∀ n, w.pathEnd q = some n → w.playOffset + x.buffer.length < n) →
            x.state = .priming ∧ x.level = w.level))) ∧
      (t.abandon = true ∨ r.drop = true ∨ (s.voice t.slot).generation ≠ t.generation →
        SameButFetch (s.voice t.slot) (u.voice t.slot)) ∧
      (t.abandon = false → ∀ a x b, rest = a ++ x :: b → (∀ y ∈ a, y.drop = true) → x.drop = false →
        u.link = some { t with reads := x :: b } ∧ ∀ v, (u.voice v).fetchOffset = (s.voice v).fetchOffset) ∧
      (t.abandon = true ∨ (∀ y ∈ rest, y.drop = true) →
        let idle := fun v => { u.voice v with fetchOffset := (s.voice v).fetchOffset }
        ((∀ v, (idle v).needsChunk (s.cueOf (s.voice v)) = false) →
          u.link = none ∧ ∀ v, (u.voice v).fetchOffset = (s.voice v).fetchOffset) ∧
        ∀ v, IsGranted s idle v →
          let w := s.voice v
          let q := s.cueOf w
          ∃ g n, u.link = some g ∧ g.slot = v ∧ g.generation = w.generation ∧ g.abandon = false ∧
            (w.pathEnd q = none → n = 256) ∧ (∀ m, w.pathEnd q = some m → n = min 256 (m - w.fetchOffset)) ∧
            (u.voice v).fetchOffset = w.fetchOffset + n ∧
            (∀ x, x ≠ v → (u.voice x).fetchOffset = (s.voice x).fetchOffset) ∧
            (PathFits q.mode w.tail → DividesChunk q w.tail w.fetchOffset n g.reads))

/-! ## Trigger lines -/

/-- What a block boundary does to the lines, the requests and the counters, where nothing is due (R1, R24 to R26, R34, R165): a line's
first sample is taken over with no event; a sample equal to the accepted level clears the change count; one that differs raises it, and at
the debounce count the level is accepted and gives a press, or on a GATE line a release. A request's age rises unless it is latched and
its group disarmed. In LOADING the boundary is counted, no line is sampled and nothing ages (R1, R24, R160). The boundary comes with every
48th sample instant and at no other (R1; log entries 4 and 19). That the press or release is recorded in the model's own field `event`,
and that a request whose age reaches the expiry time stays until its command or the next boundary takes it, is the model's choice (log
entry 2). -/
def Obligations.BlockBoundarySamplesTheLines : Prop :=
  ∀ (levels : Byte) (s : State),
    (s.tmb.samples < 48 → exec (.blockBoundary levels) s = .next s) ∧
    (s.mode = .loading → 48 ≤ s.tmb.samples → s.settled →
      exec (.blockBoundary levels) s =
        .next { s with tmb := { s.tmb with samples := 0, blocks := s.tmb.blocks + 1, lamp := (s.tmb.lamp + 1) % 250 } }) ∧
    (s.mode ≠ .loading → 48 ≤ s.tmb.samples → s.settled →
    ∃ t, exec (.blockBoundary levels) s = .next t ∧
      (∀ n : Fin 8,
        let l := s.line n
        let m := t.line n
        let active := levels.getLsbD n.val == (s.lineConfig n).activeHigh
        (l.accepted = none → m.accepted = some active ∧ m.changes = 0 ∧ m.event = l.event) ∧
        (l.accepted = some active → m.accepted = some active ∧ m.changes = 0 ∧ m.event = l.event) ∧
        (l.accepted = some (!active) → l.changes + 1 < s.cfg.debounce →
          m.accepted = l.accepted ∧ m.changes = l.changes + 1 ∧ m.event = l.event) ∧
        (l.accepted = some (!active) → s.cfg.debounce ≤ l.changes + 1 →
          m.accepted = some active ∧ m.changes = 0 ∧
            m.event = if active = true then some .press else if (s.lineConfig n).gate = true then some .release else none) ∧
        (l.request = none → m.request = none) ∧
        (∀ r, l.request = some r →
          (r.latched = false ∨ s.armed (s.groupOf r.cue) = true → m.request = some { r with age := r.age + 1 }) ∧
          (r.latched = true → s.armed (s.groupOf r.cue) = false → m.request = some r)) ∧
        m.penalty = l.penalty ∧ m.penaltyNew = l.penaltyNew ∧ m.owedRelease = l.owedRelease) ∧
      t.remote = s.remote.map (fun r => { r with age := r.age + 1 }) ∧
      t.tmb =
        { s.tmb with samples := 0, blocks := s.tmb.blocks + 1, lamp := (s.tmb.lamp + 1) % 250 } ∧
      (∀ k, s.join = .waiting k → t.join = .waiting (k + 1)) ∧
      t =
        { s with
          lines := t.lines
          remote := t.remote
          tmb := t.tmb
          pgm := t.pgm
          floor := t.floor
          monitoring := true
          join := t.join
          flags := t.flags })

/-- What a block boundary does to an output pair, where nothing is due (R119 to R121, R124, R126 to R128): HOT is latched where the
block's peak reached the threshold; the dead-air counter counts a quiet block and is set to 0 by any other; a NORMAL pair counts its
NORMAL time and its overload run; a TRIPPED one its wait, but not under OFF; a LOCKED one counts no wait and no NORMAL time and judges no
block for overload, while HOT and dead air are judged for it as for any other (R128); and the figures of a new block begin. That the
boundary itself trips, forgives, recovers and latches DEAD_AIR of no pair, but leaves that to the commands of those events or to the next
boundary, is the model's choice (log entry 2). -/
def Obligations.BlockBoundaryJudgesThePairs : Prop :=
  ∀ (levels : Byte) (s : State), s.mode ≠ .loading → 48 ≤ s.tmb.samples → s.settled →
    ∃ t, exec (.blockBoundary levels) s = .next t ∧
      (∀ o : OutPair,
        let p := s.pair o
        let u := t.pair o
        (s.monitoring = true → s.cfg.hot ≠ 0 → s.cfg.hot ≤ p.peak →
          t.flag (hotFlag o) = true ∧ t.newMark (hotFlag o) = true) ∧
        (s.monitoring = false ∨ s.cfg.hot = 0 ∨ p.peak < s.cfg.hot →
          t.flag (hotFlag o) = s.flag (hotFlag o) ∧ t.newMark (hotFlag o) = s.newMark (hotFlag o)) ∧
        (s.monitoring = true → s.cfg.silence ≠ 0 → p.allNormal = true → p.allSounding = true → p.peak < s.cfg.silence →
          u.deadAir = p.deadAir + 1) ∧
        (s.monitoring = false ∨ s.cfg.silence = 0 ∨ p.allNormal = false ∨ p.allSounding = false ∨ s.cfg.silence ≤ p.peak →
          u.deadAir = 0) ∧
        (p.prot = .normal → u.normalTime = min 5000 (p.normalTime + 1) ∧ u.wait = p.wait ∧
          u.run = if s.cfg.overloadK ≠ 0 ∧ s.cfg.overloadK ≤ p.clips then p.run + 1 else 0) ∧
        (p.prot = .tripped → u.wait = (if s.cfg.recovery = .off then p.wait else p.wait + 1) ∧ u.run = p.run ∧
          u.normalTime = p.normalTime) ∧
        (p.prot = .locked → u.wait = p.wait ∧ u.normalTime = p.normalTime ∧ u.run = p.run) ∧
        u.clips = 0 ∧ u.peak = 0 ∧ u.allNormal = true ∧ u.allSounding = true ∧
        u.prot = p.prot ∧ u.attempts = p.attempts ∧ u.port = p.port ∧ u.portNext = p.portNext) ∧
      ∀ f : Flag, f ≠ .hotPgm → f ≠ .hotFloor → t.flag f = s.flag f ∧ t.newMark f = s.newMark f

/-- A press in PENALTY or with a request pending is ignored (R27), and a press for a disarmed group follows the line's early policy:
DISCARD makes no request, PENALTY puts the line in PENALTY unless the penalty time is 0, LATCH makes a latched request that waits (R28,
R29). In each case the press clears the owed-release mark (R30). That a penalty which begins at the hold-unit boundary that is due is
marked, and so not counted down by that boundary, is log entry 36. -/
def Obligations.PressIsIgnoredOrEarly : Prop :=
  ∀ (s : State) (n : Fin 8) (c : Byte), s.mode ≠ .loading → (s.lineConfig n).action = .play c →
    let base := s.setLine n (s.line n).pressed
    ((s.line n).penalty ≠ none ∨ (s.line n).request ≠ none → exec (.playPress n) s = .next base) ∧
    ((s.line n).penalty = none → (s.line n).request = none → s.armed (s.groupOf c.toNat) = false →
      ((s.lineConfig n).early = .discard → exec (.playPress n) s = .next base) ∧
      ((s.lineConfig n).early = .penalty →
        (s.cfg.penaltyTime = 0 → exec (.playPress n) s = .next base) ∧
        (s.cfg.penaltyTime ≠ 0 →
          exec (.playPress n) s =
            .next (base.setLine n
              { (s.line n).pressed with penalty := some s.cfg.penaltyTime, penaltyNew := decide (10 ≤ s.tmb.blocks) }))) ∧
      ((s.lineConfig n).early = .latch → NoRequests s →
        exec (.playPress n) s =
          .next (base.setLine n { (s.line n).pressed with request := some { cue := c.toNat, latched := true, age := 0 } })))

/-- A request that is admitted takes the lowest FREE voice into PRIMING, ends PLAYED and moves the pointer past its line (R36, R41,
R49 to R51); in RUN a voice with a group or an emit set becomes QUEUED and its START is queued, any other stays LOCAL and queues
nothing (R64). Every other voice is untouched, but for the voices of the cue that a RESTART cue cuts (R39) and the voices of its
LAST_WINS group that the group step chokes at the group's choke fade index (R40); these are stated where each of them is SOUNDING at a V
above 0 and the choke fade index is at least 1. -/
def Obligations.PressTakesTheLowestFreeVoice : Prop :=
  (∀ (s : State) (n : Fin 8) (c : Byte) (q : Cue) (v : Fin 8),
    Presses s n c → Admitted s c.toNat q → s.groupMode q.group ≠ .firstWins → LowestFree s v →
    ∃ t, exec (.playPress n) s = .next t ∧
      JustTaken (s.voice v) (t.voice v) s.startCounter c.toNat (.line n) .priming ∧ (t.voice v).claimed = .none ∧
      (∀ u, u ≠ v → Untouched (s.voice u) (t.voice u)) ∧
      t.startCounter = (s.startCounter + 1) % 65536 ∧ t.pointer = n.castSucc + 1 ∧
      t.outcomes = s.outcomes.set n.castSucc (some .played) ∧ t.lines = (s.setLine n (s.line n).pressed).lines ∧
      t.remote = [] ∧ t.groups = s.groups ∧ t.releasing = s.releasing ∧ t.owedEnd = s.owedEnd ∧ Kept s t ∧
      (s.mode ≠ .run ∨ q.group = 0 ∧ q.emit = 0 →
        (t.voice v).announce = .localOnly ∧ t.queue = s.queue ∧ t.flags = s.flags) ∧
      (s.mode = .run → q.group ≠ 0 ∨ q.emit ≠ 0 → s.hasRoom →
        let tag := (s.voice v).generation.succ % 32 * 8 + v.val
        (∀ e ∈ s.queue, e.frame.isEndOf tag = false) →
        (t.voice v).announce = .queued ∧ t.flags = s.flags ∧
          Placed s.queue t.queue
            (newEntry (.start (BitVec.ofNat 8 q.group) c (BitVec.ofNat 8 tag) q.emit (BitVec.ofNat 8 q.depth)
              (BitVec.ofNat 8 (if q.mode = .oneShot then min 255 (ceilDiv q.length 480) else 255))) s.cfg.number))) ∧
  ∀ (s : State) (n : Fin 8) (c : Byte) (q : Cue) (v : Fin 8),
    let fresh := fun u => (s.voice u).state = .priming ∨ (s.voice u).state = .sounding
    let cut := fun u => q.retrigger = .restart ∧ fresh u ∧ (s.voice u).cue = c.toNat
    let choke := fun u => q.group ≠ 0 ∧ s.groupMode q.group = .lastWins ∧ fresh u ∧ (s.cueOf (s.voice u)).group = q.group
    Presses s n c → s.record c.toNat = .present q → s.armed q.group = true → LowestFree s v →
    q.retrigger = .restart ∨ q.retrigger = .layer → s.groupMode q.group ≠ .firstWins →
    (q.group ≠ 0 → s.groupMode q.group = .none → ∀ u, fresh u → (s.cueOf (s.voice u)).group = q.group → cut u) →
    (s.groupMode q.group = .lastWins → s.chokeFade q.group ≠ 0) →
    (∀ u, cut u ∨ choke u → (s.voice u).state = .sounding ∧ (s.voice u).level ≠ 0) →
    ∃ t, exec (.playPress n) s = .next t ∧
      JustTaken (s.voice v) (t.voice v) s.startCounter c.toNat (.line n) .priming ∧
      t.outcomes = s.outcomes.set n.castSucc (some .played) ∧ t.pointer = n.castSucc + 1 ∧ (t.line n).request = none ∧ Kept s t ∧
      ∀ u, u ≠ v →
        (cut u → Untouched ((s.voice u).runDown .cut) (t.voice u) ∧ u ∈ t.releasing) ∧
        (¬cut u → choke u → Untouched ((s.voice u).runDown (.fade (s.chokeFade q.group))) (t.voice u) ∧ u ∈ t.releasing) ∧
        (¬cut u → ¬choke u → Untouched (s.voice u) (t.voice u))

/-- For a FIRST_WINS group the voice is taken into CLAIMING, the request's outcome stays open and the pointer stays, and a CLAIM with
the key (s − w − 1) modulo 32 is queued, w being the last winner (R41, R45, R79, R80). No other voice changes. -/
def Obligations.FirstWinsPressClaims : Prop :=
  ∀ (s : State) (n : Fin 8) (c : Byte) (q : Cue) (v : Fin 8),
    Presses s n c → Admitted s c.toNat q → s.groupMode q.group = .firstWins → LowestFree s v →
    s.cfg.number ≤ 30 → s.lastWinner q.group ≤ 31 → s.hasRoom →
    ∃ t k, exec (.playPress n) s = .next t ∧ k < 32 ∧ (k + s.lastWinner q.group + 1) % 32 = s.cfg.number ∧
      JustTaken (s.voice v) (t.voice v) s.startCounter c.toNat (.line n) .claiming ∧
      (t.voice v).claimed = .openClaim ∧ (t.voice v).announce = .localOnly ∧
      (∀ u, u ≠ v → t.voice u = s.voice u) ∧
      Placed s.queue t.queue (newEntry (.claim (BitVec.ofNat 8 q.group) c) k) ∧
      t =
        { s with
          voices := t.voices
          queue := t.queue
          startCounter := (s.startCounter + 1) % 65536
          lines := (s.setLine n (s.line n).pressed).lines }

/-- A press ends REFUSED, and nothing else happens, where its cue is not PRESENT (R6, R37), its FIRST_WINS group is met outside RUN
or has a holder (R38), an IGNORE cue is already in use (R39), or its NONE or FIRST_WINS group is (R40). -/
def Obligations.PressIsRefused : Prop :=
  ∀ (s : State) (n : Fin 8) (c : Byte), Presses s n c →
    (∀ q, s.record c.toNat ≠ .present q) ∨
    (∃ q, s.record c.toNat = .present q ∧ s.armed q.group = true ∧
      (s.groupMode q.group = .firstWins ∧ (s.mode ≠ .run ∨ s.holder q.group ≠ none) ∨
       (s.groupMode q.group = .firstWins → s.mode = .run ∧ s.holder q.group = none) ∧
        (q.retrigger = .ignore ∧ (∃ u, (s.voice u).state.occupies = true ∧ (s.voice u).cue = c.toNat) ∨
         ((∀ u, (s.voice u).state.occupies = true → (s.voice u).cue ≠ c.toNat) ∨ q.retrigger = .layer) ∧ q.group ≠ 0 ∧
          (s.groupMode q.group = .none ∧
            (∃ u, (s.voice u).state.fresh = true ∧ (s.cueOf (s.voice u)).group = q.group) ∨
           s.groupMode q.group = .firstWins ∧
            (∃ u, (s.voice u).state.occupies = true ∧ (s.cueOf (s.voice u)).group = q.group))))) →
    exec (.playPress n) s =
      .next { s.setLine n (s.line n).pressed with outcomes := s.outcomes.set n.castSucc (some .refused) }

/-- TOGGLE: a press for a cue that sounds releases its voices and ends PLAYED_STOP, taking no voice (R39, R56, R58); stated where
each voice of the cue in the way is SOUNDING at a V above 0 and the cue fades out at an index from 1. -/
def Obligations.TogglePressReleasesTheCue : Prop :=
  ∀ (s : State) (n : Fin 8) (c : Byte) (q : Cue) (k : Nat),
    Presses s n c → s.record c.toNat = .present q → s.armed q.group = true →
    (s.groupMode q.group = .firstWins → s.mode = .run ∧ s.holder q.group = none) →
    q.retrigger = .toggle → q.mode.tailEnd = none → q.fadeOut = k + 1 →
    (∃ u, (s.voice u).state = .sounding ∧ (s.voice u).cue = c.toNat) →
    (∀ u, (s.voice u).state.occupies = true → (s.voice u).cue = c.toNat →
      (s.voice u).state = .sounding ∧ (s.voice u).level ≠ 0) →
    ∃ t, exec (.playPress n) s = .next t ∧
      (∀ u, ((s.voice u).state = .sounding ∧ (s.voice u).cue = c.toNat →
          t.voice u =
            { s.voice u with state := .releasing, rate := some (.fade q.fadeOut), target := 0, vCount := 0, vDone := false } ∧
            u ∈ t.releasing) ∧
        (¬((s.voice u).state = .sounding ∧ (s.voice u).cue = c.toNat) → t.voice u = s.voice u)) ∧
      (∃ joined, t.releasing = s.releasing ++ joined) ∧
      t =
        { s.setLine n (s.line n).pressed with
          voices := t.voices
          releasing := t.releasing
          choices := t.choices
          outcomes := s.outcomes.set n.castSucc (some .playedStop) }

/-- When no voice is FREE the request waits and starts one cut (R42): none where a cut is in progress; of the voice longest in
RELEASING where there is one; else of the victim, which falls to RELEASING at CUT, or from PRIMING to FREE, whereupon the request's
own pass takes its slot; and none where there is no victim. With a pending expiry time of 0 it ends EXPIRED and starts none (R43). -/
def Obligations.PressWithoutAFreeVoiceSteals : Prop :=
  ∀ (s : State) (n : Fin 8) (c : Byte) (q : Cue),
    Presses s n c → Admitted s c.toNat q → (∀ u, (s.voice u).state ≠ .free) →
    let base := s.setLine n (s.line n).pressed
    let waits := s.setLine n { (s.line n).pressed with request := some { cue := c.toNat, latched := false, age := 0 } }
    let noCut := ∀ u ∈ s.releasing, (s.voice u).state = .releasing → (s.voice u).rate ≠ some .cut
    (s.cfg.expiry = 0 →
      exec (.playPress n) s =
        .next ({ base with outcomes := s.outcomes.set n.castSucc (some .expired) }.latch .expired)) ∧
    (s.cfg.expiry ≠ 0 → ¬noCut → exec (.playPress n) s = .next waits) ∧
    (s.cfg.expiry ≠ 0 → noCut → ∀ v rest, s.releasing = v :: rest → (s.voice v).state = .releasing → (s.voice v).level ≠ 0 →
      (s.voice v).rate ≠ some (.fade 0) →
      exec (.playPress n) s =
        .next (waits.setVoice v { s.voice v with rate := some .cut, target := 0, vCount := 0, vDone := false })) ∧
    (s.cfg.expiry ≠ 0 → s.releasing = [] → (∀ u, (s.voice u).state.fresh = true → q.priority ≤ s.priorityOf u) →
      exec (.playPress n) s = .next waits) ∧
    (s.cfg.expiry ≠ 0 → s.releasing = [] → ∀ v, IsVictim s q.priority v →
      ((s.voice v).state = .sounding → (s.voice v).level ≠ 0 →
        exec (.playPress n) s =
          .next
            { waits.setVoice v
                { s.voice v with state := .releasing, rate := some .cut, target := 0, vCount := 0, vDone := false } with
              releasing := [v] }) ∧
      ((s.voice v).state = .priming → s.groupMode q.group ≠ .firstWins →
        ∃ t, exec (.playPress n) s = .next t ∧
          JustTaken (s.voice v) (t.voice v) s.startCounter c.toNat (.line n) .priming ∧
          t.outcomes = s.outcomes.set n.castSucc (some .played) ∧ (t.line n).request = none))

/-- A release on a GATE PLAY line (R30, R56 to R60): the line's request ends WITHDRAWN; its voices for its cue are released, by tail for
a LOOP_TAIL cue (the path is rewritten at X, R10) and else by a fade at the cue's fade-out index; a CLAIMING voice whose CLAIM waits is
withdrawn, and one whose CLAIM is being sent sets the owed-release mark; other voices are untouched. Where a tail begins, the buffer and
the fetch offset are cut back to X and each read of the voice's transfer from X on has its drop mark set (R22). Stated where every
release rate is one of R48: a fade index is at most 7. That a voice freed at once does not serve the line's own request, which has been
withdrawn first, is log entry 32. -/
def Obligations.ReleaseActsOnTheLinesVoices : Prop :=
  ∀ (s : State) (n : Fin 8) (c : Byte), s.mode ≠ .loading → (s.lineConfig n).action = .play c → (s.lineConfig n).gate = true →
    (∀ m, m ≠ n → (s.line m).request = none) → s.remote = [] → s.passesDue = 0 →
    (∀ v r, (s.voice v).rate = some r → r.legal) →
    ∃ t, exec (.playRelease n) s = .next t ∧ Kept s t ∧ NoRequests t ∧ t.startCounter = s.startCounter ∧
      (t.line n).penalty = (s.line n).penalty ∧ (t.line n).accepted = (s.line n).released.accepted ∧
      ((s.line n).request ≠ none → t.outcomes.get n.castSucc = some .withdrawn) ∧
      ∀ v,
        let w := s.voice v
        let u := t.voice v
        let q := s.cueOf w
        let ofLine := w.state ≠ .free ∧ w.source = .line n ∧ w.cue = c.toNat
        let only := ∀ x, (s.voice x).state = .claiming → (s.cueOf (s.voice x)).group = q.group → x = v
        (¬ofLine → Untouched w u) ∧
        (ofLine → w.state ≠ .claiming → q.mode.tailEnd = none → Untouched (w.released (.fade q.fadeOut)) u) ∧
        (ofLine → w.state = .releasing → q.mode.tailEnd ≠ none → Untouched w u) ∧
        (ofLine → w.state = .sounding → ∀ last, q.mode.tailEnd = some last → w.tail = none →
          let x := w.playOffset + (last - w.playPosition q)
          u.state = .releasing ∧ u.rate = some .tail ∧ u.level = w.level ∧ u.target = w.level ∧ u.tail = some x ∧
            u.playOffset = w.playOffset ∧ u.buffer = w.buffer.take (x - w.playOffset) ∧ v ∈ t.releasing ∧
            (∀ y, s.link = some y →
              u.fetchOffset = min w.fetchOffset x ∧
              (y.slot = v → y.generation = w.generation →
                t.link = some { y with reads := y.reads.map fun r => if x ≤ r.first then { r with drop := true } else r }))) ∧
        (ofLine → w.state = .priming → ∀ last, q.mode.tailEnd = some last → w.tail = none →
          (u.state = .priming ∨ u.state = .sounding) ∧ u.tail = some (w.playOffset + (last - w.playPosition q)) ∧
            u.generation = w.generation ∧ u.playOffset = w.playOffset) ∧
        (ofLine → q.mode.tailEnd ≠ none → w.tail ≠ none →
          (w.state = .sounding →
            Untouched { w with state := .releasing, rate := some .tail, target := w.level, vCount := 0, vDone := false } u ∧
              v ∈ t.releasing) ∧
          (w.state = .priming → Untouched w u)) ∧
        (ofLine → w.state = .claiming → only → s.hasWaiting (Frame.isClaimOf q.group) = true →
          u = Voice.freed w.generation ∧ t.hasWaiting (Frame.isClaimOf q.group) = false ∧
            (w.claimed = .openClaim → t.outcomes.get n.castSucc = some .withdrawn)) ∧
        (ofLine → w.state = .claiming → only → s.hasWaiting (Frame.isClaimOf q.group) = false →
          s.hasFlying (Frame.isClaimOf q.group) = true → Untouched w u ∧ (t.line n).owedRelease = true)

/-- A press on a SEND line queues the line's frame in RUN, and a release on a GATE SEND line of action FIRE a STOP; in JOINING and
SILENT nothing is queued (R31). The key is the station's number (R133). -/
def Obligations.SendLinesQueueTheirFrames : Prop :=
  ∀ (s : State) (n : Fin 8), s.mode ≠ .loading → s.hasRoom →
    let a := (s.lineConfig n).action
    let down := s.setLine n { s.line n with accepted := (s.line n).accepted.map fun _ => true, changes := 0, event := none }
    let up := s.setLine n (s.line n).released
    (∀ f : Frame,
      (∃ t c k, a = .sendFire t c k ∧ f = .fire t c) ∨ (∃ t c k, a = .sendStop t c k ∧ f = .stop t c k) ∨
      (∃ g, a = .sendArm g ∧ f = .arm g) ∨ (∃ g, a = .sendDisarm g ∧ f = .disarm g) ∨
      (∃ g, a = .sendRelease g ∧ f = .release g) →
      (s.mode = .run → ∃ q, Placed s.queue q (newEntry f s.cfg.number) ∧ exec (.sendPress n) s = .next { down with queue := q }) ∧
      (s.mode ≠ .run → exec (.sendPress n) s = .next down)) ∧
    ((s.lineConfig n).gate = true →
      (∀ t c k, a = .sendFire t c k →
        (s.mode = .run →
          ∃ q, Placed s.queue q (newEntry (.stop t c k) s.cfg.number) ∧ exec (.sendRelease n) s = .next { up with queue := q }) ∧
        (s.mode ≠ .run → exec (.sendRelease n) s = .next up)) ∧
      ((∀ c, a ≠ .play c) → (∀ t c k, a ≠ .sendFire t c k) → exec (.sendRelease n) s = .next up))

/-- A frame offered to a full queue (R148, R149): where the last waiting entry, which is the youngest of the largest kind, is of a
larger kind it is evicted, and a QUEUED voice whose START that was becomes LOCAL; otherwise the new frame is dropped. TXQ_DROP is
latched either way. The press of a SEND line of action RELEASE stands for the offers. -/
def Obligations.FullQueueEvictsTheLeastUrgent : Prop :=
  ∀ (s : State) (n : Fin 8) (g : Byte), s.mode = .run → QueueLaw s.queue → s.queue.length = 8 →
    (s.lineConfig n).action = .sendRelease g →
    (∀ a e b, s.queue = a ++ e :: b → e.inFlight = false → (∀ x ∈ b, x.inFlight = true) → 2 < e.kind →
      ∃ t, exec (.sendPress n) s = .next t ∧ Placed (a ++ b) t.queue (newEntry (.release g) s.cfg.number) ∧
        t.flag .txqDrop = true ∧ t.newMark .txqDrop = true ∧ (∀ x ∈ a, x.kind ≤ e.kind) ∧
        (∀ g' c tag em d h, e.frame = .start g' c tag em d h → ∀ v : Fin 8, s.tag v = tag.toNat → v.val = tag.toNat % 8 →
          (s.voice v).announce = .queued → t.voice v = { s.voice v with announce := .localOnly }) ∧
        ((∀ g' c tag em d h, e.frame ≠ .start g' c tag em d h) → t.voices = s.voices)) ∧
    ((∀ e ∈ s.queue, e.inFlight = false → e.kind ≤ 2) →
      ∃ t, exec (.sendPress n) s = .next t ∧ t.queue = s.queue ∧ t.voices = s.voices ∧ t.flag .txqDrop = true ∧
        t.newMark .txqDrop = true)

/-- REQUEST_EXPIRY: a request whose age has reached a pending expiry time that is not 0 ends EXPIRED, leaves and latches EXPIRED (R34), a
latched one also where its group has been disarmed since; one that has not stays. Before the sample instant that a block boundary falls
with, an aging request already has the age that this boundary gives it, so that it can end before a voice that the instant frees is given
to it (R44; log entry 37). Where a new remote entry comes to the head a pass runs (R36); stated where no line's request waits: an entry
whose cue is not PRESENT ends REFUSED (R37), one that is admitted takes the lowest FREE voice and ends PLAYED (R41), and one that finds
every voice in use and a cut in progress stays at the head (R42). -/
def Obligations.RipeRequestsExpire : Prop :=
  ∀ s : State,
    let due := fun (aging : Prop) (age : Nat) =>
      s.cfg.expiry ≠ 0 ∧
        (s.cfg.expiry ≤ age ∨ aging ∧ s.mode ≠ .loading ∧ s.tmb.samples = 47 ∧ s.cfg.expiry ≤ age + 1)
    (∀ n r, (s.line n).request = some r →
      let aging := r.latched = false ∨ s.armed (s.groupOf r.cue) = true
      (due aging r.age →
        exec (.requestExpiry (.line n)) s =
          .next
            ({ s.setLine n { s.line n with request := none } with
                outcomes := s.outcomes.set n.castSucc (some .expired) }.latch .expired)) ∧
      (¬due aging r.age → exec (.requestExpiry (.line n)) s = .next s)) ∧
    (∀ (i : Fin 4) r, s.remote[i.val]? = some r →
      (due True r.age → i.val ≠ 0 ∨ s.remote.length = 1 →
        exec (.requestExpiry (.remote i)) s =
          .next ({ s with remote := s.remote.eraseIdx i.val, outcomes := s.outcomes.set 8 (some .expired) }.latch .expired)) ∧
      (due True r.age → i.val = 0 →
        ∃ t, exec (.requestExpiry (.remote i)) s = .next t ∧ t.remote <:+ s.remote.tail ∧ t.flag .expired = true ∧ Kept s t) ∧
      (¬due True r.age → exec (.requestExpiry (.remote i)) s = .next s)) ∧
    ∀ r x rest, s.remote = r :: x :: rest → due True r.age → (∀ n, (s.line n).request = none) →
      s.passesDue = 0 →
      let left := fun (l : List RemoteEntry) (o : RequestOutcome) =>
        { s with remote := l, outcomes := s.outcomes.set 8 (some o) }.latch .expired
      (rest = [] → (∀ q, s.record x.cue ≠ .present q) → exec (.requestExpiry (.remote 0)) s = .next (left [] .refused)) ∧
      ∀ q, Admitted s x.cue q →
        (∀ v, rest = [] → s.groupMode q.group ≠ .firstWins → LowestFree s v →
          ∃ t, exec (.requestExpiry (.remote 0)) s = .next t ∧ t.remote = [] ∧
            JustTaken (s.voice v) (t.voice v) s.startCounter x.cue .remote .priming ∧
            t.outcomes = s.outcomes.set 8 (some .played) ∧ t.pointer = 0 ∧ t.flag .expired = true ∧
            (∀ u, u ≠ v → Untouched (s.voice u) (t.voice u))) ∧
        ((∀ v, (s.voice v).state ≠ .free) →
          (∃ v ∈ s.releasing, (s.voice v).state = .releasing ∧ (s.voice v).rate = some .cut) →
          exec (.requestExpiry (.remote 0)) s = .next (left (x :: rest) .expired))

/-! ## The output pairs -/

/-- DEAD_AIR, ATTEMPTS_FORGIVEN, PENALTY_END and DUCK_ENTRY_EXPIRY: a pair whose dead-air counter has reached ten times the dead-air
time latches its DEAD_AIR flag and counts from 0 again (R122); a NORMAL pair whose NORMAL time has reached 5000 has its attempts set
to 0 (R127); a line whose penalty count has reached 0 leaves PENALTY (R29); a duck entry whose remaining time has reached 0 is removed
(R108). Before that none of them does anything (log entry 4). The lamps: dark in LOADING; of a line in PENALTY lit in the first 125 blocks
of the lamp cycle; else lit by the line's tally mode (R46, R47). -/
def Obligations.CountersAtTheirLimitsEnd : Prop :=
  ∀ s : State,
    (∀ o : OutPair,
      (s.cfg.deadAirTime * 10 ≤ (s.pair o).deadAir →
        exec (.deadAir o) s = .next ((s.setPair o { s.pair o with deadAir := 0 }).latch (deadAirFlag o))) ∧
      ((s.pair o).deadAir < s.cfg.deadAirTime * 10 → exec (.deadAir o) s = .next s) ∧
      ((s.pair o).prot = .normal → 5000 ≤ (s.pair o).normalTime →
        exec (.attemptsForgiven o) s = .next (s.setPair o { s.pair o with attempts := 0 })) ∧
      ((s.pair o).prot ≠ .normal ∨ (s.pair o).normalTime < 5000 → exec (.attemptsForgiven o) s = .next s)) ∧
    (∀ n, (s.line n).penalty = some 0 → exec (.penaltyEnd n) s = .next (s.setLine n { s.line n with penalty := none })) ∧
    (∀ n, (s.line n).penalty ≠ some 0 → exec (.penaltyEnd n) s = .next s) ∧
    (∀ (source : BitVec 5) (tag : Byte), ∃ l, exec (.duckEntryExpiry source tag) s = .next { s with ducks := l } ∧
      l.Sublist s.ducks ∧
      ∀ e ∈ s.ducks, e ∈ l ↔ ¬(e.source = source.toNat ∧ e.tag = tag.toNat ∧ e.remaining = 0)) ∧
    ∀ n,
      (s.mode = .loading → lampLit s n = false) ∧
      (s.mode ≠ .loading →
        ((s.line n).penalty ≠ none → (lampLit s n = true ↔ s.tmb.lamp < 125)) ∧
        ((s.line n).penalty = none →
          ((s.lineConfig n).tally = .voice →
            (lampLit s n = true ↔ ∃ v, (s.voice v).state ≠ .free ∧ (s.voice v).source = .line n)) ∧
          ((s.lineConfig n).tally = .holder →
            (lampLit s n = true ↔
              ∃ i, (s.groups.get i).holder = some s.cfg.number ∧ (s.groups.get i).holdingLine = some n)) ∧
          (∀ g, (s.lineConfig n).tally = .group g →
            (lampLit s n = true ↔ ∃ i : Fin 15, i.val + 1 = g ∧ (s.groups.get i).holder ≠ none)) ∧
          ((s.lineConfig n).tally = .off → lampLit s n = false)))

/-- OVERLOAD_TRIP and RECOVERY_WAIT_END: a NORMAL pair whose overload run has reached 16 trips, to LOCKED where the recovery mode is
SHORT or LONG and three attempts are used, else to TRIPPED, and TRIP is latched; attempts that the same boundary forgives are forgiven
first (R124, R125, R127). A TRIPPED pair whose wait has reached 100 blocks under SHORT, or 1000 under LONG and ENDLESS, returns to NORMAL
with an attempt more, but not under ENDLESS; under OFF it stays (R126). That a wait outside TRIPPED and a NORMAL time outside NORMAL are
held as 0 is log entry 39. -/
def Obligations.TripsAndRecoveries : Prop :=
  ∀ (s : State) (o : OutPair),
    let p := s.pair o
    let used := if 5000 ≤ p.normalTime then 0 else p.attempts
    (p.prot = .normal → 16 ≤ p.run →
      exec (.overloadTrip o) s =
        .next
          ((s.setPair o
            { p with
              prot := if (s.cfg.recovery = .short ∨ s.cfg.recovery = .long) ∧ 3 ≤ used then .locked else .tripped
              attempts := used
              run := 0
              wait := 0
              normalTime := 0 }).latch .trip)) ∧
    (p.prot ≠ .normal ∨ p.run < 16 → exec (.overloadTrip o) s = .next s) ∧
    (p.prot = .tripped →
      (s.cfg.recovery = .short ∧ 100 ≤ p.wait ∨ s.cfg.recovery = .long ∧ 1000 ≤ p.wait →
        exec (.recoveryWaitEnd o) s =
          .next (s.setPair o { p with prot := .normal, run := 0, wait := 0, normalTime := 0, attempts := p.attempts + 1 })) ∧
      (s.cfg.recovery = .endless → 1000 ≤ p.wait →
        exec (.recoveryWaitEnd o) s =
          .next (s.setPair o { p with prot := .normal, run := 0, wait := 0, normalTime := 0 })) ∧
      (s.cfg.recovery = .off ∨ s.cfg.recovery = .short ∧ p.wait < 100 ∨
        (s.cfg.recovery = .long ∨ s.cfg.recovery = .endless) ∧ p.wait < 1000 →
        exec (.recoveryWaitEnd o) s = .next s)) ∧
    (p.prot ≠ .tripped → exec (.recoveryWaitEnd o) s = .next s)

/-! ## Hold units -/

/-- The remaining time R of a voice is the smaller of the data bound of a voice with a path length and the fade bound of a RELEASING
voice, and is unbounded where neither applies (R67). -/
def Obligations.RemainingTimeIsTheSmallerBound : Prop :=
  ∀ (w : Voice) (q : Cue),
    let fading := fun r => w.state = .releasing ∧ w.rate = some r
    (∀ n k, w.pathEnd q = some n → fading (.fade k) →
      w.remainingTime q = some (min (ceilDiv (n - w.playOffset) 480) (ceilDiv (w.level * 2 ^ (k + 2)) 480))) ∧
    (∀ n, w.pathEnd q = some n → fading .cut → w.remainingTime q = some (min (ceilDiv (n - w.playOffset) 480) 1)) ∧
    (∀ n, w.pathEnd q = some n → (∀ k, ¬fading (.fade k)) → ¬fading .cut →
      w.remainingTime q = some (ceilDiv (n - w.playOffset) 480)) ∧
    (∀ k, w.pathEnd q = none → fading (.fade k) → w.remainingTime q = some (ceilDiv (w.level * 2 ^ (k + 2)) 480)) ∧
    (w.pathEnd q = none → fading .cut → w.remainingTime q = some 1) ∧
    (w.pathEnd q = none → (∀ k, ¬fading (.fade k)) → ¬fading .cut → w.remainingTime q = none)

/-- What a hold-unit boundary does where nothing is due (R29, R67, R108): every penalty count, every duck entry's remaining time and the H
of every ANNOUNCED voice fall by one, 0 staying 0, but the count of a penalty that began at this very boundary stays, so that the penalty
lasts more than P - 1 hold units (log entry 36). In LOADING the hold unit is counted and nothing else changes (R1, R160). In RUN a voice
whose H is then 50 or less and below its remaining time queues a HOLD of that time, at most 255, unless one for its tag is in the queue.
The boundary comes with every 10th block boundary and at no other (R1; log entries 4 and 19). That a duck entry and a penalty that reach 0
stay in the state until their command or the next boundary takes them is the model's choice (log entry 2). -/
def Obligations.HoldUnitBoundaryCountsDown : Prop :=
  ∀ s : State,
    (s.tmb.blocks < 10 → exec .holdUnitBoundary s = .next s) ∧
    (s.mode = .loading → 10 ≤ s.tmb.blocks → s.settled →
      exec .holdUnitBoundary s = .next { s with tmb := { s.tmb with blocks := 0 } }) ∧
    (s.mode ≠ .loading → 10 ≤ s.tmb.blocks → s.settled →
    ∃ t, exec .holdUnitBoundary s = .next t ∧
      (∀ n, t.line n =
        { s.line n with
          penalty := if (s.line n).penaltyNew = true then (s.line n).penalty else (s.line n).penalty.map fun p => p - 1
          penaltyNew := false }) ∧
      t.ducks = s.ducks.map (fun e => { e with remaining := e.remaining - 1 }) ∧
      (∀ v h, (s.voice v).announce = .announced h → t.voice v = { s.voice v with announce := .announced (h - 1) }) ∧
      (∀ v, (∀ h, (s.voice v).announce ≠ .announced h) → t.voice v = s.voice v) ∧
      t.remote = s.remote ∧ t.groups = s.groups ∧ t.pgm = s.pgm ∧ t.floor = s.floor ∧ t.tmb = { s.tmb with blocks := 0 } ∧
      let wants := fun (v : Fin 8) (h : Nat) =>
        ((s.voice v).announce = .announced h ∧ s.mode = .run ∧ h - 1 ≤ 50 ∧
          (∀ r, (s.voice v).remainingTime (s.cueOf (s.voice v)) = some r → h - 1 < r) ∧
          s.hasFrame (Frame.isHoldOf (s.tag v)) = false)
      ((∀ v h, ¬wants v h) → t.queue = s.queue ∧ t.flags = s.flags) ∧
      ∀ v h, wants v h → (∀ u k, wants u k → u = v) → s.hasRoom → s.hasWaiting (Frame.isStartOf (s.tag v)) = false → Ranged s →
        Placed s.queue t.queue
          (newEntry (.hold (BitVec.ofNat 8 (s.tag v))
            (BitVec.ofNat 8 (match (s.voice v).remainingTime (s.cueOf (s.voice v)) with
              | some r => min r 255
              | none => 255))) s.cfg.number))

/-! ## The cue bus -/

/-- BUS_IDLE, RX_START_BIT and RX_DISCARD where the station sends no frame: after 12 recessive bit times the bus reads as idle, a frame
dropped at its third bit error has left the queue (R140; log entry 34), and a station in JOINING then queues its join STATUS once (R131,
R165); a start bit at idle begins a frame (R132), and at no other time; a frame being received that the receiver discards is not counted,
the station waits for idle, and it has driven the echo only where the check was good and the end bit alone was read dominant, in JOINING
and RUN (R134 to R136). Levels that are no discard, and a discard where no frame is being received, change nothing (log entries 4 and
11). -/
def Obligations.ReceiverReadsTheBus : Prop :=
  ∀ s : State, s.mode ≠ .loading → (∀ e ∈ s.queue, e.inFlight = true → 3 ≤ e.attempts) →
    let left := s.queue.filter fun e => !e.inFlight
    let idle := { s with rx := .idle, idleCount := 12, tx := .idle, queue := left }
    (s.mode ≠ .joining ∨ s.join ≠ .notOffered → exec .busIdle s = .next idle) ∧
    (s.mode = .joining → s.join = .notOffered →
      (NoStatus left → left.length < 8 →
        ∃ q, Placed left q (newEntry (.status 0 0 0 0 0 0) s.cfg.number) ∧
          exec .busIdle s = .next { idle with join := .offered, queue := q }) ∧
      (¬NoStatus left → exec .busIdle s = .next { idle with join := .offered })) ∧
    (s.rx = .idle → exec .rxStartBit s = .next { s with rx := .receiving, idleCount := 0 }) ∧
    (s.rx ≠ .idle → exec .rxStartBit s = .next s) ∧
    (∀ bits answered, bits.length ≤ 94 → receive bits = .discarded answered →
      (s.rx = .receiving →
        exec (.rxDiscard bits) s =
          .next
            { s with
              rx := .seekingIdle
              idleCount := 0
              echoed := decide (answered = true ∧ (s.mode = .joining ∨ s.mode = .run)) }) ∧
      (s.rx ≠ .receiving → exec (.rxDiscard bits) s = .next s)) ∧
    (∀ bits, bits.length ≤ 94 → receive bits = .unfinished ∨ (∃ f, receive bits = .accepted f) →
      exec (.rxDiscard bits) s = .next s)

/-- FRAME_BEGIN: with the bus idle and nothing in flight, RUN begins the frame at the head of the queue and JOINING its first STATUS;
the entry is in flight at its place and its bits are driven (R132, R133, R144). A STATUS is formed then, from the station as it stands,
and clears every new mark (R153, R155, 10.4). SILENT begins nothing. -/
def Obligations.FrameBeginsAtIdle : Prop :=
  ∀ s : State, (∀ e ∈ s.queue, e.inFlight = false) →
    let begun := fun (a : List Entry) (e : Entry) (b : List Entry) (f : Frame) =>
      { s with
        queue := a ++ { e with frame := f, inFlight := true } :: b
        flags := if f.isStatus then s.flags.map (fun l => { l with fresh := false }) else s.flags
        tx := .sending (Entry.raw s.cfg.number { e with frame := f }).wireBits
        rx := .seekingIdle
        idleCount := 0 }
    (s.rx ≠ .idle ∨ s.mode = .silent ∨ s.mode = .loading ∨ s.queue = [] → exec .frameBegin s = .next s) ∧
    (s.mode = .joining → NoStatus s.queue → exec .frameBegin s = .next s) ∧
    (∀ e rest, s.rx = .idle → s.mode = .run → s.queue = e :: rest → e.frame.isStatus = false →
      exec .frameBegin s = .next (begun [] e rest e.frame)) ∧
    (∀ a e rest, s.rx = .idle → s.queue = a ++ e :: rest → e.frame.isStatus = true →
      (s.mode = .run ∧ a = [] ∨ s.mode = .joining ∧ NoStatus a) →
      ∃ b0 b1 b2 b3 b4 b5 : Byte,
        exec .frameBegin s = .next (begun a e rest (.status b0 b1 b2 b3 b4 b5)) ∧
        (Lawful s →
          b0.getLsbD 7 = s.fresh ∧ b0.getLsbD 6 = decide (s.mode = .run) ∧ b0.getLsbD 5 = s.configDefaults ∧
          b0.toNat % 16 = (slots.filter fun v => decide ((s.voice v).state ≠ .free)).length ∧
          b1.toNat / 16 = (slots.filter fun n => (s.line n).request.isSome).length + s.remote.length ∧
          b1.toNat / 4 % 4 = s.pgm.prot.code ∧ b1.toNat % 4 = s.pgm.attempts ∧
          b2.toNat / 64 = s.floor.prot.code ∧ b2.toNat / 16 % 4 = s.floor.attempts ∧
          b2.getLsbD 3 = s.flag .hotPgm ∧ b2.getLsbD 2 = s.flag .hotFloor ∧ b2.getLsbD 1 = s.flag .deadAirPgm ∧
          b2.getLsbD 0 = s.flag .deadAirFloor ∧ b3.getLsbD 7 = s.flag .trip ∧ b3.getLsbD 6 = s.flag .txqDrop ∧
          b3.getLsbD 5 = s.flag .duckFull ∧ b3.getLsbD 4 = s.flag .underrun ∧ b3.getLsbD 3 = s.flag .remoteFull ∧
          b3.getLsbD 2 = s.flag .expired ∧ b3.getLsbD 1 = s.flag .unheard ∧ b3.getLsbD 0 = s.flag .txFault ∧
          b4.toNat = s.badRecords % 256 ∧ b5.toNat = s.received % 256))

/-- ARBITRATION_LOST and BIT_ERROR (R137, R139, R140, R149, R150): the frame in flight waits again at its place, with an attempt more
after a bit error, and what was held off then acts: a START with an owed END is taken out, a CLAIM whose voice is to end is withdrawn. The
third bit error drops the frame and latches TX_FAULT: it is not begun again, and no error of it is counted any more, but it stays in the
queue until its error flag is over, which the next sample instants or BUS_IDLE say (log entry 34); a START's voice becomes LOCAL, a
CLAIM's is withdrawn, REFUSED, and a station whose join STATUS it was retires to SILENT (R165). After a bit error the station drives 8
dominant bit times and then releases the wire (R139). -/
def Obligations.FlightsReturnOrAreDropped : Prop :=
  ∀ (s : State) (a b : List Entry) (e : Entry), s.queue = a ++ e :: b → e.inFlight = true → e.attempts < 3 → (∀ x ∈ a ++ b, x.inFlight = false) →
    let lost := fun q => { s with queue := q, tx := .idle, rx := .receiving }
    let flag := Transmitter.errorFlag (List.replicate 8 false)
    let error := fun q => { s with queue := q, tx := flag, rx := .seekingIdle, idleCount := 0 }
    let back := fun k => a ++ { e with inFlight := false, attempts := k } :: b
    let gone := { e with attempts := 3 }
    let doomed := fun v => (s.voice v).stopMark = true ∨ ∃ n, (s.voice v).source = .line n ∧ (s.line n).owedRelease = true
    let plain := (∀ g c t em d h, e.frame = .start g c t em d h → ∀ o, s.owedEnd = some o → o.tag ≠ t.toNat) ∧
      (∀ g c, e.frame = .claim g c → ∀ v, (s.voice v).state = .claiming → (s.cueOf (s.voice v)).group = g.toNat → ¬doomed v)
    (∀ n, flag.level n = decide (8 ≤ n)) ∧
    (plain → exec .arbitrationLost s = .next (lost (back e.attempts))) ∧
    (plain → e.attempts + 1 < 3 → exec .bitError s = .next (error (back (e.attempts + 1)))) ∧
    (∀ g c t em d h, e.frame = .start g c t em d h → ∀ o, s.owedEnd = some o → o.tag = t.toNat →
      (∀ x ∈ a ++ b, x.frame.isStartOf t.toNat = false) →
      exec .arbitrationLost s = .next { lost (a ++ b) with owedEnd := none } ∧
      (e.attempts + 1 < 3 → exec .bitError s = .next { error (a ++ b) with owedEnd := none })) ∧
    (∀ g c v, e.frame = .claim g c → OnlyClaimant s g.toNat v → NoRequests s →
      let withdrawn := fun (t : State) (o : RequestOutcome) =>
        t.voice v = Voice.freed (s.voice v).generation ∧ t.hasWaiting (Frame.isClaimOf g.toNat) = false ∧
        (∀ u, u ≠ v → Untouched (s.voice u) (t.voice u)) ∧
        ((s.voice v).claimed = .openClaim → ∀ p, (s.voice v).source.place = some p → t.outcomes.get p = some o)
      (doomed v → ∃ t, exec .arbitrationLost s = .next t ∧ withdrawn t .withdrawn ∧ t.hasFrame (Frame.isClaimOf g.toNat) = false) ∧
      (doomed v → e.attempts + 1 < 3 →
        ∃ t, exec .bitError s = .next t ∧ withdrawn t .withdrawn ∧ t.hasFrame (Frame.isClaimOf g.toNat) = false) ∧
      (e.attempts = 2 → ∃ t, exec .bitError s = .next t ∧ withdrawn t .refused ∧ gone ∈ t.queue ∧ t.flag .txFault = true)) ∧
    (e.attempts = 2 →
      ((∀ g c, e.frame ≠ .claim g c) → (∀ g c t em d h, e.frame ≠ .start g c t em d h) →
        ¬(e.frame.isStatus = true ∧ s.mode = .joining ∧ s.join = .offered) →
        exec .bitError s = .next ((error (a ++ gone :: b)).latch .txFault)) ∧
      (e.frame.isStatus = true → s.mode = .joining → s.join = .offered →
        ∃ t, exec .bitError s = .next t ∧ t.mode = .silent ∧ t.queue = [] ∧ t.tx = flag ∧ t.flag .txFault = true) ∧
      (∀ g c tag em d h, e.frame = .start g c tag em d h →
        ∃ t, exec .bitError s = .next t ∧ t.queue = a ++ gone :: b ∧ t.tx = flag ∧ t.flag .txFault = true ∧
          (∀ v, s.tag v = tag.toNat → (s.voice v).announce = .queued →
            t.voice v = { s.voice v with announce := .localOnly }) ∧
          (∀ v, ¬(s.tag v = tag.toNat ∧ (s.voice v).announce = .queued) → t.voice v = s.voice v) ∧
          (∀ o, s.owedEnd = some o → t.owedEnd = if o.tag = tag.toNat then none else some o))) ∧
    let after := { s with queue := a ++ gone :: b }
    exec .bitError after = .next after ∧ exec .arbitrationLost after = .next after ∧ exec .frameBegin after = .next after

/-! ## Groups -/

/-- The station's own CLAIM completes, HEARD or UNHEARD (R52, R81): the station is named holder and last winner; the CLAIMING voice is
the holding voice, its line the holding line; the voice enters PRIMING, its START is queued in RUN and its claimed request ends PLAYED.
A stop mark, or the owed release of a cue that is not LOOP_TAIL, sends it on to FREE, and under hold AUTO a RELEASE is queued; the owed
release of a LOOP_TAIL cue sets its tail. With no CLAIMING voice only the view changes. -/
def Obligations.OwnClaimNamesTheHolder : Prop :=
  ∀ (s : State) (heard : Bool) (e : Entry) (g c : Byte) (i : Fin 15), s.flying = some e → e.frame = .claim g c → NamesGroup g i →
    (NoClaimant s g.toNat →
      exec (.ownClaimComplete heard) s =
        .next ((s.sent heard).setGroup i
          { s.groups.get i with
            holder := some s.cfg.number
            lastWinner := s.cfg.number
            holdingVoice := none
            holdingLine := none })) ∧
    ∀ v, OnlyClaimant s g.toNat v → NoRequests s → Lawful s → Ranged s →
      let w := s.voice v
      let owed := ∃ n, w.source = .line n ∧ (s.line n).owedRelease = true
      let tails := (s.cueOf w).mode.tailEnd ≠ none
      let ends := w.stopMark = true ∨ owed ∧ ¬tails
      ∃ t, exec (.ownClaimComplete heard) s = .next t ∧
        (t.groups.get i).holder = some s.cfg.number ∧ (t.groups.get i).lastWinner = s.cfg.number ∧
        (∀ n, w.source = .line n → (t.groups.get i).holdingLine = some n) ∧
        (∀ p, w.source.place = some p → t.outcomes.get p = some .played ∧ t.pointer = p + 1) ∧
        (∀ u, u ≠ v → Untouched (s.voice u) (t.voice u)) ∧
        (heard = false → t.flag .unheard = true) ∧
        (¬ends → ¬owed →
          (t.groups.get i).holdingVoice = some (v, s.tag v) ∧
          t.voice v =
            { w with
              state := .priming
              claimed := .played
              announce := (t.voice v).announce
              fetchOffset := (t.voice v).fetchOffset } ∧
          (s.mode = .run → (∀ x ∈ s.queue, x.frame.isEndOf (s.tag v) = false) →
            (t.voice v).announce = .queued ∧
            ∃ depth hold, Placed (s.sent heard).queue t.queue
              (newEntry (.start g (BitVec.ofNat 8 w.cue) (BitVec.ofNat 8 (s.tag v)) (s.cueOf w).emit depth hold) s.cfg.number))) ∧
        (¬ends → owed →
          ((t.voice v).state = .priming ∨ (t.voice v).state = .sounding) ∧ (t.voice v).tail ≠ none ∧
            ∀ n, w.source = .line n → (t.line n).owedRelease = false) ∧
        (ends → t.voice v = Voice.freed w.generation ∧ (t.groups.get i).holdingVoice = none ∧
          (s.mode = .run → (s.cfg.groups.get i).manual = false → (∀ j, (s.groups.get j).holdingVoice ≠ some (v, s.tag v)) →
            t.hasFrame (Frame.isReleaseOf g.toNat) = true))

/-- Another station's CLAIM completes (R82, R83): for a FIRST_WINS group with no holder its sender is named holder and last winner, and
this station's queued claim is withdrawn, LOST; where this station holds the group it answers with one HELD in RUN; where another does,
and for a group that is not FIRST_WINS here, nothing but the count changes. `WireLaw` rules out only states that no run reaches
(EveryStepKeepsTheBounds, ResetMeetsTheBounds), those in which a frame of another station is received while a dropped one of the station's
own is still in its queue. -/
def Obligations.AnothersClaimNamesItOrIsAnswered : Prop :=
  ∀ (s : State) (src : BitVec 5) (g c : Byte), Hears s src → WireLaw s →
    ((∀ i, NamesGroup g i → (s.cfg.groups.get i).mode ≠ .firstWins) → exec (.claim src g c) s = .next s.counted) ∧
    ∀ i, NamesGroup g i → (s.cfg.groups.get i).mode = .firstWins →
      let view := { s.groups.get i with holder := some src.toNat, lastWinner := src.toNat }
      ((s.groups.get i).holder = none →
        (NoClaimant s g.toNat → exec (.claim src g c) s = .next (s.counted.setGroup i view)) ∧
        (∀ v, OnlyClaimant s g.toNat v → s.hasWaiting (Frame.isClaimOf g.toNat) = true → NoRequests s →
          ∃ t, exec (.claim src g c) s = .next t ∧ (t.groups.get i).holder = some src.toNat ∧
            (t.groups.get i).lastWinner = src.toNat ∧ t.voice v = Voice.freed (s.voice v).generation ∧
            t.hasFrame (Frame.isClaimOf g.toNat) = false ∧
            ((s.voice v).claimed = .openClaim → ∀ p, (s.voice v).source.place = some p → t.outcomes.get p = some .lost) ∧
            (∀ u, u ≠ v → Untouched (s.voice u) (t.voice u)))) ∧
      ((s.groups.get i).holder = some s.cfg.number →
        (s.mode = .run → s.hasFrame (Frame.isHeldOf g.toNat) = false → s.hasRoom →
          ∃ q, Placed s.queue q (newEntry (.held g) s.cfg.number) ∧ exec (.claim src g c) s = .next { s.counted with queue := q }) ∧
        (s.mode ≠ .run ∨ s.hasFrame (Frame.isHeldOf g.toNat) = true → exec (.claim src g c) s = .next s.counted)) ∧
      (∀ h, (s.groups.get i).holder = some h → h ≠ s.cfg.number → exec (.claim src g c) s = .next s.counted)

/-- A HELD completes (R62, R86, R87). Another station's names its sender holder and last winner, clears the holding voice and line, takes
this station's queued HELD and RELEASE for the group out, withdraws its queued claim, LOST, and where this station was holder cuts its
holding voice, whose request PLAYED is changed to LOST. The station's own names it holder and last winner. `WireLaw` rules out only states
that no run reaches (EveryStepKeepsTheBounds, ResetMeetsTheBounds). -/
def Obligations.HeldNamesItsSenderHolder : Prop :=
  ∀ (s : State) (g : Byte) (i : Fin 15), NamesGroup g i → (s.cfg.groups.get i).mode = .firstWins →
    (∀ heard e, s.flying = some e → e.frame = .held g →
      exec (.ownHeldComplete heard) s =
        .next ((s.sent heard).setGroup i
          { s.groups.get i with holder := some s.cfg.number, lastWinner := s.cfg.number })) ∧
    ∀ src : BitVec 5, Hears s src → WireLaw s → NoRequests s →
      let was := s.groups.get i
      let yields := fun v => was.holder = some s.cfg.number ∧ was.holdingVoice = some (v, s.tag v)
      ∃ t, exec (.held src g) s = .next t ∧
        t.groups.get i = { was with holder := some src.toNat, lastWinner := src.toNat, holdingVoice := none, holdingLine := none } ∧
        t.hasFrame (Frame.isHeldOf g.toNat) = false ∧ t.hasFrame (Frame.isReleaseOf g.toNat) = false ∧
        ∀ v,
          let w := s.voice v
          (yields v → w.state ≠ .free → w.state ≠ .claiming →
            Untouched ({ w with claimed := if w.claimed = Claimed.played then Claimed.none else w.claimed }.released .cut) (t.voice v) ∧
              (w.claimed = .played → ∀ p, w.source.place = some p → t.outcomes.get p = some .lost)) ∧
          (¬yields v → w.state ≠ .claiming → Untouched w (t.voice v)) ∧
          (OnlyClaimant s g.toNat v → s.hasWaiting (Frame.isClaimOf g.toNat) = true → ¬yields v →
            t.voice v = Voice.freed w.generation ∧ t.hasFrame (Frame.isClaimOf g.toNat) = false ∧
              (w.claimed = .openClaim → ∀ p, w.source.place = some p → t.outcomes.get p = some .lost))

/-- A RELEASE completes, from any station (R89): the group has no holder, holding voice or holding line, the last winner is kept, and this
station's queued HELD and RELEASE for it are taken out; for a group that is not FIRST_WINS here nothing is done. Where the group had a
holder a pass runs: it finds nothing where no request is pending, and decides one that is (R36, R41). `WireLaw` rules out only states that
no run reaches (EveryStepKeepsTheBounds, ResetMeetsTheBounds). -/
def Obligations.ReleaseFreesTheGroup : Prop :=
  ∀ (s base : State) (sender : Sender) (g : Byte), Completes s sender (.release g) base → WireLaw s →
    ((∀ i, NamesGroup g i → (s.cfg.groups.get i).mode ≠ .firstWins) → exec (.release sender g) s = .next base) ∧
    ∀ i, NamesGroup g i → (s.cfg.groups.get i).mode = .firstWins →
      let released :=
        { base with
            queue := base.queue.filter fun e => !(e.frame.isHeldOf g.toNat || e.frame.isReleaseOf g.toNat) }.setGroup i
          { s.groups.get i with holder := none, holdingVoice := none, holdingLine := none }
      (NoRequests s ∨ (s.groups.get i).holder = none → exec (.release sender g) s = .next released) ∧
      ∀ n r q v, (s.groups.get i).holder ≠ none → OnlyRequest s n r → Admitted released r.cue q → LowestFree s v →
        s.groupMode q.group ≠ .firstWins →
        ∃ t, exec (.release sender g) s = .next t ∧ Served released t n r.cue v

/-- ARM and DISARM (R73 to R75): the named groups are armed or disarmed and the others kept; a DISARM that disarms a group withdraws the
station's queued claim for it, REFUSED, and touches no other voice. An ARM that arms a group runs a pass (R74): stated for two lines whose
requests meet one FREE voice with a cut in progress, the line that comes first in the serving order takes it and the other's request
waits. That order is by line number from 0 under FIXED, and round from the rotation pointer under ROTATING (R36). The rest is stated where
no request is pending. `WireLaw` rules out only states that no run reaches (EveryStepKeepsTheBounds, ResetMeetsTheBounds). -/
def Obligations.ArmAndDisarmSetTheNamedGroups : Prop :=
  (∀ (s base : State) (sender : Sender) (set : GroupSet), NoRequests s →
    (Completes s sender (.arm set) base →
      exec (.arm sender set) s =
        .next { base with
          groups := s.groups.mapIdx fun i g => { g with armed := g.armed || set.getLsbD (i + 1) } }) ∧
    (Completes s sender (.disarm set) base → WireLaw s →
      ((∀ v, (s.voice v).state ≠ .claiming) →
        exec (.disarm sender set) s =
          .next { base with
            groups := s.groups.mapIdx fun i g => { g with armed := g.armed && !set.getLsbD (i + 1) } }) ∧
      ∃ t, exec (.disarm sender set) s = .next t ∧
        (∀ i : Fin 15, (t.groups.get i).armed = ((s.groups.get i).armed && !set.getLsbD (i.val + 1))) ∧
        (∀ v, (s.voice v).state ≠ .claiming → Untouched (s.voice v) (t.voice v)) ∧
        ∀ (i : Fin 15) v, set.getLsbD (i.val + 1) = true → (s.groups.get i).armed = true → OnlyClaimant s (i.val + 1) v →
          base.hasWaiting (Frame.isClaimOf (i.val + 1)) = true →
          t.voice v = Voice.freed (s.voice v).generation ∧ t.hasFrame (Frame.isClaimOf (i.val + 1)) = false ∧
            ((s.voice v).claimed = .openClaim → ∀ p, (s.voice v).source.place = some p → t.outcomes.get p = some .refused))) ∧
  ∀ (s base : State) (sender : Sender) (set : GroupSet) (a b : Fin 8) (ra rb : Request) (qa qb : Cue) (v : Fin 8),
    Completes s sender (.arm set) base →
    let turn := fun n : Fin 8 => if s.cfg.rotating = true then (n.val + 9 - s.pointer.val) % 9 else n.val
    let armed :=
      { base with groups := s.groups.mapIdx fun i g => { g with armed := g.armed || set.getLsbD (i + 1) } }
    (∃ i : Fin 15, set.getLsbD (i.val + 1) = true ∧ (s.groups.get i).armed = false) →
    (s.line a).request = some ra → (s.line b).request = some rb → (∀ n, n ≠ a → n ≠ b → (s.line n).request = none) →
    s.remote = [] → s.passesDue = 0 → turn a < turn b →
    Admitted armed ra.cue qa → Admitted armed rb.cue qb → s.groupMode qa.group ≠ .firstWins →
    rb.cue ≠ ra.cue ∨ qb.retrigger = .layer → qb.group = 0 ∨ qb.group ≠ qa.group →
    (s.voice v).state = .free → (∀ u, u ≠ v → (s.voice u).state ≠ .free) → s.cfg.expiry ≠ 0 →
    (∃ u ∈ s.releasing, (s.voice u).state = .releasing ∧ (s.voice u).rate = some .cut) →
    ∃ t, exec (.arm sender set) s = .next t ∧ Served armed t a ra.cue v ∧ (t.line b).request = some rb

/-! ## The station's own frames -/

/-- The station's own START, END and HOLD complete (R65, R66, R68, R141): a START makes the QUEUED voice of its tag ANNOUNCED with the
hold it was sent with, or where the END of its tag is owed has that END queued; a HOLD sets H of the ANNOUNCED voice of its tag; an END
changes nothing more, and neither do the others where no such voice is left. -/
def Obligations.OwnStartEndAndHoldComplete : Prop :=
  ∀ (s : State) (heard : Bool) (e : Entry), s.flying = some e →
    let base := s.sent heard
    (∀ tag g, e.frame = .endFrame tag g → exec (.ownEndComplete heard) s = .next base) ∧
    (∀ tag h, e.frame = .hold tag h →
      (∀ v k, s.tag v = tag.toNat → (s.voice v).announce = .announced k →
        exec (.ownHoldComplete heard) s = .next (base.setVoice v { s.voice v with announce := .announced h.toNat })) ∧
      ((∀ v k, s.tag v = tag.toNat → (s.voice v).announce ≠ .announced k) → exec (.ownHoldComplete heard) s = .next base)) ∧
    ∀ g c tag em d h, e.frame = .start g c tag em d h →
      (∀ v, s.tag v = tag.toNat → (s.voice v).announce = .queued →
        exec (.ownStartComplete heard) s = .next (base.setVoice v { s.voice v with announce := .announced h.toNat })) ∧
      ((∀ v, s.tag v = tag.toNat → (s.voice v).announce ≠ .queued) →
        ((∀ o, s.owedEnd = some o → o.tag ≠ tag.toNat) → exec (.ownStartComplete heard) s = .next base) ∧
        (∀ o, s.owedEnd = some o → o.tag = tag.toNat → QueueLaw s.queue →
          (∀ x ∈ base.queue, x.frame.isStartOf tag.toNat = false) →
          ∃ q, Placed base.queue q (newEntry (.endFrame tag (BitVec.ofNat 8 o.group)) s.cfg.number) ∧
            exec (.ownStartComplete heard) s = .next { base with queue := q, owedEnd := none }))

/-- The station's own STATUS completes (R155, R156, R158, R165): each flag it carried that has not been latched since it was formed is
cleared, every other flag stays, the fresh bit is cleared, and a join STATUS begins the join wait. -/
def Obligations.OwnStatusClearsWhatItCarried : Prop :=
  ∀ (s : State) (heard : Bool) (e : Entry) (b0 b1 b2 b3 b4 b5 : Byte), s.flying = some e → e.frame = .status b0 b1 b2 b3 b4 b5 →
    let base := s.sent heard
    ∃ t, exec (.ownStatusComplete heard) s = .next t ∧
      (∀ f : Flag,
        (carries b2 b3 f = true → base.newMark f = false → t.flag f = false ∧ t.newMark f = false) ∧
        (carries b2 b3 f = false ∨ base.newMark f = true → t.flag f = base.flag f ∧ t.newMark f = base.newMark f)) ∧
      t =
        { base with
          flags := t.flags
          fresh := false
          join := if s.mode = .joining ∧ s.join = .offered then .waiting 0 else s.join }

/-! ## Frames of other stations -/

/-- Another station's START meets the duck list (R103 to R105): an empty emit set removes the entry of its key; a known key has its
fields replaced in place; a new key is added behind the others, and in a full list takes the place of the earliest of the smallest
depth if its own is larger, DUCK_FULL being latched whether it does or not. A hold of 0 is taken as 1. -/
def Obligations.StartMeetsTheDuckList : Prop :=
  ∀ (s : State) (src : BitVec 5) (g c tag : Byte) (emit : ClassSet) (depth hold : Byte),
    Hears s src → s.ducksLive → DuckLaw s.ducks →
    let key := fun x : DuckEntry => x.source = src.toNat ∧ x.tag = tag.toNat
    let taken := max hold.toNat 1
    let added : DuckEntry :=
      { source := src.toNat, tag := tag.toNat, classes := emit, depth := depth.toNat, remaining := taken }
    ∃ t, exec (.start src g c tag emit depth hold) s = .next t ∧
      (emit = 0 → t.ducks = s.ducks.filter (fun x => decide (¬key x))) ∧
      (emit ≠ 0 → (∃ x ∈ s.ducks, key x) →
        t.ducks = s.ducks.map (fun x =>
          if key x then { x with classes := emit, depth := depth.toNat, remaining := taken } else x)) ∧
      (emit ≠ 0 → (∀ x ∈ s.ducks, ¬key x) → s.ducks.length < 16 → t.ducks = s.ducks ++ [added]) ∧
      (emit ≠ 0 → (∀ x ∈ s.ducks, ¬key x) → s.ducks.length = 16 →
        t.flag .duckFull = true ∧ t.newMark .duckFull = true ∧
        ((∀ x ∈ s.ducks, depth.toNat ≤ x.depth) → t.ducks = s.ducks) ∧
        ∀ a x b, s.ducks = a ++ x :: b → x.depth < depth.toNat → (∀ y ∈ a, x.depth < y.depth) → (∀ y ∈ b, x.depth ≤ y.depth) →
          t.ducks = a ++ b ++ [added]) ∧
      ((∀ i, NamesGroup g i → (s.cfg.groups.get i).mode ≠ .lastWins) →
        t = { s.counted with ducks := t.ducks, flags := t.flags } ∧
          (emit = 0 ∨ (∃ x ∈ s.ducks, key x) ∨ s.ducks.length < 16 → t.flags = s.flags))

/-- Another station's START for a group that is LAST_WINS here chokes it (R56, R77): each voice of the group that is ANNOUNCED and
PRIMING or SOUNDING is released at the group's choke fade index; a QUEUED or LOCAL one, a RELEASING one and one of another group are not
touched. Stated where no request is pending. -/
def Obligations.StartChokesTheGroup : Prop :=
  ∀ (s : State) (src : BitVec 5) (g c tag : Byte) (emit : ClassSet) (depth hold : Byte) (i : Fin 15),
    Hears s src → NoRequests s → NamesGroup g i → (s.cfg.groups.get i).mode = .lastWins →
    ∃ t, exec (.start src g c tag emit depth hold) s = .next t ∧ t.outcomes = s.outcomes ∧
      ∀ v,
        let w := s.voice v
        let choked := (w.state = .priming ∨ w.state = .sounding) ∧ (s.cueOf w).group = g.toNat ∧ ∃ h, w.announce = .announced h
        (choked → Untouched (w.released (.fade (s.cfg.groups.get i).chokeFade)) (t.voice v)) ∧
          (¬choked → Untouched w (t.voice v))

/-- When an END frame from another station completes, the entry whose key is its source station and tag is removed, if there is one;
the frame's group takes no part (R107). -/
def Obligations.EndRemovesItsDuckEntry : Prop :=
  ∀ (s : State) (src : BitVec 5) (tag g : Byte), Hears s src → s.ducksLive → DuckLaw s.ducks →
    exec (.endFrame src tag g) s =
      .next { s.counted with ducks := s.ducks.filter fun x => decide (¬(x.source = src.toNat ∧ x.tag = tag.toNat)) }

/-- When a HOLD frame from another station completes, the remaining of the entry whose key is its source station and tag becomes the
frame's hold, 0 taken as 1, larger or smaller than it was; a HOLD creates no entry (R106). -/
def Obligations.HoldSetsItsDuckEntry : Prop :=
  ∀ (s : State) (src : BitVec 5) (tag h : Byte), Hears s src → s.ducksLive →
    exec (.hold src tag h) s =
      .next { s.counted with
        ducks := s.ducks.map fun x =>
          if x.source = src.toNat ∧ x.tag = tag.toNat then { x with remaining := max h.toNat 1 } else x }

/-- A STOP for a cue from 0 to 254 completes (R35, R70): at a station that is its target the requests for the cue end and the cue's voices
are released by fade at its index; at another, and for other cues, nothing is done. That a voice RELEASING by TAIL at V = 0 goes to FREE
at once at an index of 1 to 7 is log entry 15. `WireLaw` rules out only states that no run reaches (EveryStepKeepsTheBounds,
ResetMeetsTheBounds). -/
def Obligations.StopEndsTheCue : Prop :=
  ∀ (s base : State) (sender : Sender) (target cue : Byte) (k : BitVec 3),
    Completes s sender (.stop target cue k) base → WireLaw s → cue.toNat ≠ 255 →
    (¬s.isTarget target → exec (.stop sender target cue k) s = .next base) ∧
    (s.isTarget target →
      ∃ t, exec (.stop sender target cue k) s = .next t ∧
        (∀ n r, (s.line n).request = some r → r.cue = cue.toNat → (t.line n).request = none) ∧
        (∀ r ∈ t.remote, r.cue ≠ cue.toNat) ∧
        (NoRequests s → ∀ v,
          ((s.voice v).state ≠ .free → (s.voice v).cue = cue.toNat → StoppedVoice s base t k.toNat v) ∧
          ((s.voice v).state = .free ∨ (s.voice v).cue ≠ cue.toNat → Untouched (s.voice v) (t.voice v))))

/-- The all-stop completes at its target (R35, R71, R90, R129): every request and penalty ends and every owed-release mark is clear; both
pairs are NORMAL with their counts at 0, the monitor's figures and dead-air counters kept; every voice is stopped as R70 says; and in RUN
a RELEASE is queued for each FIRST_WINS group the station holds, or lost at a full queue. That a voice RELEASING by TAIL at V = 0 goes to
FREE at once at an index of 1 to 7 is log entry 15; that a trip which a boundary made due comes first, and latches TRIP, is log entry 2.
`WireLaw` rules out only states that no run reaches (EveryStepKeepsTheBounds, ResetMeetsTheBounds). -/
def Obligations.AllStopEndsEverything : Prop :=
  ∀ (s base : State) (sender : Sender) (target : Byte) (k : BitVec 3), Completes s sender (.stop target 255 k) base →
    WireLaw s →
    (¬s.isTarget target → exec (.allStop sender target k) s = .next base) ∧
    (s.isTarget target →
      ∃ t, exec (.allStop sender target k) s = .next t ∧ exec (.stop sender target 255 k) s = .next t ∧
        (∀ n, (t.line n).request = none ∧ (t.line n).penalty = none ∧ (t.line n).owedRelease = false) ∧ t.remote = [] ∧
        (∀ o, t.pair o = { s.pair o with prot := .normal, attempts := 0, run := 0, wait := 0, normalTime := 0 }) ∧
        (∀ o, (s.pair o).prot = .normal → 16 ≤ (s.pair o).run → t.flag .trip = true ∧ t.newMark .trip = true) ∧
        t.ducks = s.ducks ∧
        (NoRequests s →
          (∀ v, StoppedVoice s base t k.toNat v) ∧
          ∀ i, s.mode = .run → (s.cfg.groups.get i).mode = .firstWins → (s.groups.get i).holder = some s.cfg.number →
            (t.hasFrame (Frame.isReleaseOf (i.val + 1)) = true ∨ t.flag .txqDrop = true) ∧
            ((∀ v, (s.voice v).announce = .localOnly) →
              base.queue.length +
                (groupPlaces.filter fun j =>
                  decide ((s.groups.get j).holder = some s.cfg.number) || (s.groups.get j).holdingVoice.isSome).length ≤ 8 →
              t.hasFrame (Frame.isReleaseOf (i.val + 1)) = true)))

/-- A FIRE completes at its target (R33, R41, R42): a request of the same station for the same cue that waits already makes no second;
a fifth request is refused with REMOTE_FULL; else it joins the remote queue and a pass decides it: an admitted one takes the lowest FREE
voice, one whose cue is not PRESENT ends REFUSED, and one that finds a cut in progress waits. A station it does not address does
nothing. -/
def Obligations.FireMakesARemoteRequest : Prop :=
  ∀ (s base : State) (sender : Sender) (target c : Byte), Completes s sender (.fire target c) base →
    let known := ∃ r ∈ s.remote, r.source = s.senderNumber sender ∧ r.cue = c.toNat
    (¬s.isTarget target ∨ known → exec (.fire sender target c) s = .next base) ∧
    (s.isTarget target → ¬known → 4 ≤ s.remote.length → exec (.fire sender target c) s = .next (base.latch .remoteFull)) ∧
    (s.isTarget target → NoRequests s →
      ((∀ q, s.record c.toNat ≠ .present q) →
        exec (.fire sender target c) s = .next { base with outcomes := s.outcomes.set 8 (some .refused) }) ∧
      ∀ q, Admitted s c.toNat q →
        (∀ v, s.groupMode q.group ≠ .firstWins → LowestFree s v →
          ∃ t, exec (.fire sender target c) s = .next t ∧ t.remote = [] ∧
            JustTaken (s.voice v) (t.voice v) s.startCounter c.toNat .remote .priming ∧
            t.outcomes = s.outcomes.set 8 (some .played) ∧ t.pointer = 0 ∧
            (∀ u, u ≠ v → Untouched (s.voice u) (t.voice u))) ∧
        ((∀ v, (s.voice v).state ≠ .free) → s.cfg.expiry ≠ 0 →
          (∃ v ∈ s.releasing, (s.voice v).state = .releasing ∧ (s.voice v).rate = some .cut) →
          exec (.fire sender target c) s =
            .next { base with remote := [{ cue := c.toNat, source := s.senderNumber sender, age := 0 }] }))

/-- A received ASK for this station is answered with one STATUS in JOINING and RUN (R147, R152); a STATUS, a frame of no kind and length
of 10.1 and one of source 0 or 31 are counted and change nothing else (R143, R158). -/
def Obligations.AskIsAnsweredOthersAreCounted : Prop :=
  ∀ (s : State), s.mode ≠ .loading → s.flying = none → s.rx = .receiving →
    (∀ (src : BitVec 5) (target : Byte), Hears s src →
      (s.isTarget target → s.mode = .joining ∨ s.mode = .run → NoStatus s.queue → s.hasRoom →
        ∃ q, Placed s.queue q (newEntry (.status 0 0 0 0 0 0) s.cfg.number) ∧
          exec (.ask src target) s = .next { s.counted with queue := q }) ∧
      (¬s.isTarget target ∨ s.mode = .silent ∨ ¬NoStatus s.queue → exec (.ask src target) s = .next s.counted)) ∧
    (∀ (src : BitVec 5) (b0 b1 b2 b3 b4 b5 : Byte), Hears s src → exec (.status src b0 b1 b2 b3 b4 b5) s = .next s.counted) ∧
    ∀ (kind src : BitVec 5) (payload : List Byte), payload.length ≤ 6 →
      (src.toNat = 0 ∨ src.toNat = 31 ∨
        src.toNat ≠ s.cfg.number ∧
          (11 < kind.toNat ∨
            payload.length ≠
              (match kind.toNat with
              | 1 | 2 | 10 => 1
              | 3 | 11 => 6
              | 6 => 3
              | _ => 2))) →
      exec (.rxUnappliedFrame kind src payload) s = .next s.counted

/-- A frame that bears this station's own number and that it did not send (R167 to R169): in RUN a STATUS with the fresh bit set is
answered with a STATUS; otherwise a station in JOINING or RUN retires to SILENT with an empty queue, no owed END and its QUEUED voices
LOCAL; in SILENT it is only counted. A queued claim's voice is withdrawn, REFUSED (R92). -/
def Obligations.OwnNumberHeardRetiresTheStation : Prop :=
  ∀ (s : State) (c : Instr) (fresh : Bool), s.mode ≠ .loading → s.flying = none → s.rx = .receiving →
    1 ≤ s.cfg.number → s.cfg.number ≤ 30 →
    (∃ b0 b1 b2 b3 b4 b5 : Byte, fresh = b0.getLsbD 7 ∧
      (c = .rxFreshStatusOwnNumber b0 b1 b2 b3 b4 b5 ∨ c = .rxOwnNumberFrame 11 [b0, b1, b2, b3, b4, b5])) ∨
    (∃ kind payload, payload.length ≤ 6 ∧ (kind ≠ 11 ∨ payload.length ≠ 6) ∧ fresh = false ∧
      c = .rxOwnNumberFrame kind payload) →
    let retired :=
      { s.counted with
        mode := .silent
        join := .done
        queue := []
        owedEnd := none
        voices := s.voices.map fun w => if w.announce = .queued then { w with announce := .localOnly } else w }
    (s.mode = .silent → exec c s = .next s.counted) ∧
    (s.mode = .run → fresh = true →
      (NoStatus s.queue → s.hasRoom →
        ∃ q, Placed s.queue q (newEntry (.status 0 0 0 0 0 0) s.cfg.number) ∧ exec c s = .next { s.counted with queue := q }) ∧
      (¬NoStatus s.queue → exec c s = .next s.counted)) ∧
    (s.mode = .joining ∨ s.mode = .run ∧ fresh = false →
      ((∀ v, (s.voice v).state ≠ .claiming) → exec c s = .next retired) ∧
      ∃ t, exec c s = .next t ∧ t.mode = .silent ∧ t.queue = [] ∧ t.owedEnd = none ∧ t.ducks = s.ducks ∧
        ∀ v g, OnlyClaimant s g v → s.hasWaiting (Frame.isClaimOf g) = true → NoRequests s →
          t.voice v = Voice.freed (s.voice v).generation ∧
            ((s.voice v).claimed = .openClaim → ∀ p, (s.voice v).source.place = some p → t.outcomes.get p = some .refused))

/-! ## The frame on the wire -/

/-- A receiver that reads the bits a sender drives, whatever it reads in the echo slot, has the sender's frame: no bit of kind, key,
source, length, payload or check is lost among the sync bits (R133 to R136). It discards a frame with a sync bit of the wrong level, a
length value of 7, a check value that is not the one of its bits, or an end bit read dominant, having accepted it by the last check bit
only in this last case; a frame cut short is neither. A frame of n payload bytes takes 41 + 9n bit times, and its payload spells the
frame it was formed from (10.1). -/
def Obligations.SentFrameIsReadBack : Prop :=
  (∀ (f : RawFrame) (echo : Bool), f.payload.length ≤ 6 →
    let sent := withSync 0 f.contentBits
    f.wireBits = false :: sent ++ [true, true] ∧ f.wireBits.length = 41 + 9 * f.payload.length ∧
      receive (sent ++ [echo, true]) = .accepted f ∧ receive (sent ++ [echo, false]) = .discarded true ∧
      (∀ k more, 9 * k + 8 < sent.length →
        receive (sent.take (9 * k + 8) ++ (!sent.getD (9 * k + 8) true) :: more) = .discarded false) ∧
      (∀ (c : BitVec 16) last, c ≠ checkValue f.headBits →
        receive (withSync 0 (f.headBits ++ bitsOf 16 c.toNat) ++ [echo, last]) = .discarded false) ∧
      ∀ n, n ≤ sent.length + 1 → receive ((sent ++ [echo, true]).take n) = .unfinished) ∧
    (∀ arbitration more : List Bool, arbitration.length = 15 →
      receive (withSync 0 (arbitration ++ [true, true, true]) ++ more) = .discarded false) ∧
    ∀ f : Frame, f.payload.length ≤ 6 ∧ Frame.ofPayload f.kind f.payload = some f
end

