-- ==== Sys2Proof/Laws/State.lean ====
section
/-! SUPPORT. What each update of one field of the state leaves, field by field, and the reads of what was written. -/

namespace Sys2Proof.Machine

variable (s : State)

/-! ## setVoice -/

@[simp] theorem State.setVoice_mode (v : Fin 8) (w : Voice) : (s.setVoice v w).mode = s.mode := rfl
@[simp] theorem State.setVoice_load (v : Fin 8) (w : Voice) : (s.setVoice v w).load = s.load := rfl
@[simp] theorem State.setVoice_join (v : Fin 8) (w : Voice) : (s.setVoice v w).join = s.join := rfl
@[simp] theorem State.setVoice_cfg (v : Fin 8) (w : Voice) : (s.setVoice v w).cfg = s.cfg := rfl
@[simp] theorem State.setVoice_configDefaults (v : Fin 8) (w : Voice) : (s.setVoice v w).configDefaults = s.configDefaults := rfl
@[simp] theorem State.setVoice_badRecords (v : Fin 8) (w : Voice) : (s.setVoice v w).badRecords = s.badRecords := rfl
@[simp] theorem State.setVoice_cues (v : Fin 8) (w : Voice) : (s.setVoice v w).cues = s.cues := rfl
@[simp] theorem State.setVoice_tmb (v : Fin 8) (w : Voice) : (s.setVoice v w).tmb = s.tmb := rfl
@[simp] theorem State.setVoice_lines (v : Fin 8) (w : Voice) : (s.setVoice v w).lines = s.lines := rfl
@[simp] theorem State.setVoice_remote (v : Fin 8) (w : Voice) : (s.setVoice v w).remote = s.remote := rfl
@[simp] theorem State.setVoice_pointer (v : Fin 8) (w : Voice) : (s.setVoice v w).pointer = s.pointer := rfl
@[simp] theorem State.setVoice_outcomes (v : Fin 8) (w : Voice) : (s.setVoice v w).outcomes = s.outcomes := rfl
@[simp] theorem State.setVoice_passesDue (v : Fin 8) (w : Voice) : (s.setVoice v w).passesDue = s.passesDue := rfl
@[simp] theorem State.setVoice_voices (v : Fin 8) (w : Voice) : (s.setVoice v w).voices = s.voices.set v w := rfl
@[simp] theorem State.setVoice_startCounter (v : Fin 8) (w : Voice) : (s.setVoice v w).startCounter = s.startCounter := rfl
@[simp] theorem State.setVoice_releasing (v : Fin 8) (w : Voice) : (s.setVoice v w).releasing = s.releasing := rfl
@[simp] theorem State.setVoice_owedEnd (v : Fin 8) (w : Voice) : (s.setVoice v w).owedEnd = s.owedEnd := rfl
@[simp] theorem State.setVoice_link (v : Fin 8) (w : Voice) : (s.setVoice v w).link = s.link := rfl
@[simp] theorem State.setVoice_groups (v : Fin 8) (w : Voice) : (s.setVoice v w).groups = s.groups := rfl
@[simp] theorem State.setVoice_ducks (v : Fin 8) (w : Voice) : (s.setVoice v w).ducks = s.ducks := rfl
@[simp] theorem State.setVoice_monitoring (v : Fin 8) (w : Voice) : (s.setVoice v w).monitoring = s.monitoring := rfl
@[simp] theorem State.setVoice_pgm (v : Fin 8) (w : Voice) : (s.setVoice v w).pgm = s.pgm := rfl
@[simp] theorem State.setVoice_floor (v : Fin 8) (w : Voice) : (s.setVoice v w).floor = s.floor := rfl
@[simp] theorem State.setVoice_queue (v : Fin 8) (w : Voice) : (s.setVoice v w).queue = s.queue := rfl
@[simp] theorem State.setVoice_tx (v : Fin 8) (w : Voice) : (s.setVoice v w).tx = s.tx := rfl
@[simp] theorem State.setVoice_rx (v : Fin 8) (w : Voice) : (s.setVoice v w).rx = s.rx := rfl
@[simp] theorem State.setVoice_idleCount (v : Fin 8) (w : Voice) : (s.setVoice v w).idleCount = s.idleCount := rfl
@[simp] theorem State.setVoice_echoed (v : Fin 8) (w : Voice) : (s.setVoice v w).echoed = s.echoed := rfl
@[simp] theorem State.setVoice_received (v : Fin 8) (w : Voice) : (s.setVoice v w).received = s.received := rfl
@[simp] theorem State.setVoice_flags (v : Fin 8) (w : Voice) : (s.setVoice v w).flags = s.flags := rfl
@[simp] theorem State.setVoice_fresh (v : Fin 8) (w : Voice) : (s.setVoice v w).fresh = s.fresh := rfl
@[simp] theorem State.setVoice_choices (v : Fin 8) (w : Voice) : (s.setVoice v w).choices = s.choices := rfl
@[simp] theorem State.setVoice_pending (v : Fin 8) (w : Voice) : (s.setVoice v w).pending = s.pending := rfl

/-! ## setLine -/

@[simp] theorem State.setLine_mode (n : Fin 8) (l : Line) : (s.setLine n l).mode = s.mode := rfl
@[simp] theorem State.setLine_load (n : Fin 8) (l : Line) : (s.setLine n l).load = s.load := rfl
@[simp] theorem State.setLine_join (n : Fin 8) (l : Line) : (s.setLine n l).join = s.join := rfl
@[simp] theorem State.setLine_cfg (n : Fin 8) (l : Line) : (s.setLine n l).cfg = s.cfg := rfl
@[simp] theorem State.setLine_configDefaults (n : Fin 8) (l : Line) : (s.setLine n l).configDefaults = s.configDefaults := rfl
@[simp] theorem State.setLine_badRecords (n : Fin 8) (l : Line) : (s.setLine n l).badRecords = s.badRecords := rfl
@[simp] theorem State.setLine_cues (n : Fin 8) (l : Line) : (s.setLine n l).cues = s.cues := rfl
@[simp] theorem State.setLine_tmb (n : Fin 8) (l : Line) : (s.setLine n l).tmb = s.tmb := rfl
@[simp] theorem State.setLine_lines (n : Fin 8) (l : Line) : (s.setLine n l).lines = s.lines.set n l := rfl
@[simp] theorem State.setLine_remote (n : Fin 8) (l : Line) : (s.setLine n l).remote = s.remote := rfl
@[simp] theorem State.setLine_pointer (n : Fin 8) (l : Line) : (s.setLine n l).pointer = s.pointer := rfl
@[simp] theorem State.setLine_outcomes (n : Fin 8) (l : Line) : (s.setLine n l).outcomes = s.outcomes := rfl
@[simp] theorem State.setLine_passesDue (n : Fin 8) (l : Line) : (s.setLine n l).passesDue = s.passesDue := rfl
@[simp] theorem State.setLine_voices (n : Fin 8) (l : Line) : (s.setLine n l).voices = s.voices := rfl
@[simp] theorem State.setLine_startCounter (n : Fin 8) (l : Line) : (s.setLine n l).startCounter = s.startCounter := rfl
@[simp] theorem State.setLine_releasing (n : Fin 8) (l : Line) : (s.setLine n l).releasing = s.releasing := rfl
@[simp] theorem State.setLine_owedEnd (n : Fin 8) (l : Line) : (s.setLine n l).owedEnd = s.owedEnd := rfl
@[simp] theorem State.setLine_link (n : Fin 8) (l : Line) : (s.setLine n l).link = s.link := rfl
@[simp] theorem State.setLine_groups (n : Fin 8) (l : Line) : (s.setLine n l).groups = s.groups := rfl
@[simp] theorem State.setLine_ducks (n : Fin 8) (l : Line) : (s.setLine n l).ducks = s.ducks := rfl
@[simp] theorem State.setLine_monitoring (n : Fin 8) (l : Line) : (s.setLine n l).monitoring = s.monitoring := rfl
@[simp] theorem State.setLine_pgm (n : Fin 8) (l : Line) : (s.setLine n l).pgm = s.pgm := rfl
@[simp] theorem State.setLine_floor (n : Fin 8) (l : Line) : (s.setLine n l).floor = s.floor := rfl
@[simp] theorem State.setLine_queue (n : Fin 8) (l : Line) : (s.setLine n l).queue = s.queue := rfl
@[simp] theorem State.setLine_tx (n : Fin 8) (l : Line) : (s.setLine n l).tx = s.tx := rfl
@[simp] theorem State.setLine_rx (n : Fin 8) (l : Line) : (s.setLine n l).rx = s.rx := rfl
@[simp] theorem State.setLine_idleCount (n : Fin 8) (l : Line) : (s.setLine n l).idleCount = s.idleCount := rfl
@[simp] theorem State.setLine_echoed (n : Fin 8) (l : Line) : (s.setLine n l).echoed = s.echoed := rfl
@[simp] theorem State.setLine_received (n : Fin 8) (l : Line) : (s.setLine n l).received = s.received := rfl
@[simp] theorem State.setLine_flags (n : Fin 8) (l : Line) : (s.setLine n l).flags = s.flags := rfl
@[simp] theorem State.setLine_fresh (n : Fin 8) (l : Line) : (s.setLine n l).fresh = s.fresh := rfl
@[simp] theorem State.setLine_choices (n : Fin 8) (l : Line) : (s.setLine n l).choices = s.choices := rfl
@[simp] theorem State.setLine_pending (n : Fin 8) (l : Line) : (s.setLine n l).pending = s.pending := rfl

/-! ## setGroup -/

@[simp] theorem State.setGroup_mode (i : Fin 15) (g : GroupView) : (s.setGroup i g).mode = s.mode := rfl
@[simp] theorem State.setGroup_load (i : Fin 15) (g : GroupView) : (s.setGroup i g).load = s.load := rfl
@[simp] theorem State.setGroup_join (i : Fin 15) (g : GroupView) : (s.setGroup i g).join = s.join := rfl
@[simp] theorem State.setGroup_cfg (i : Fin 15) (g : GroupView) : (s.setGroup i g).cfg = s.cfg := rfl
@[simp] theorem State.setGroup_configDefaults (i : Fin 15) (g : GroupView) : (s.setGroup i g).configDefaults = s.configDefaults := rfl
@[simp] theorem State.setGroup_badRecords (i : Fin 15) (g : GroupView) : (s.setGroup i g).badRecords = s.badRecords := rfl
@[simp] theorem State.setGroup_cues (i : Fin 15) (g : GroupView) : (s.setGroup i g).cues = s.cues := rfl
@[simp] theorem State.setGroup_tmb (i : Fin 15) (g : GroupView) : (s.setGroup i g).tmb = s.tmb := rfl
@[simp] theorem State.setGroup_lines (i : Fin 15) (g : GroupView) : (s.setGroup i g).lines = s.lines := rfl
@[simp] theorem State.setGroup_remote (i : Fin 15) (g : GroupView) : (s.setGroup i g).remote = s.remote := rfl
@[simp] theorem State.setGroup_pointer (i : Fin 15) (g : GroupView) : (s.setGroup i g).pointer = s.pointer := rfl
@[simp] theorem State.setGroup_outcomes (i : Fin 15) (g : GroupView) : (s.setGroup i g).outcomes = s.outcomes := rfl
@[simp] theorem State.setGroup_passesDue (i : Fin 15) (g : GroupView) : (s.setGroup i g).passesDue = s.passesDue := rfl
@[simp] theorem State.setGroup_voices (i : Fin 15) (g : GroupView) : (s.setGroup i g).voices = s.voices := rfl
@[simp] theorem State.setGroup_startCounter (i : Fin 15) (g : GroupView) : (s.setGroup i g).startCounter = s.startCounter := rfl
@[simp] theorem State.setGroup_releasing (i : Fin 15) (g : GroupView) : (s.setGroup i g).releasing = s.releasing := rfl
@[simp] theorem State.setGroup_owedEnd (i : Fin 15) (g : GroupView) : (s.setGroup i g).owedEnd = s.owedEnd := rfl
@[simp] theorem State.setGroup_link (i : Fin 15) (g : GroupView) : (s.setGroup i g).link = s.link := rfl
@[simp] theorem State.setGroup_groups (i : Fin 15) (g : GroupView) : (s.setGroup i g).groups = s.groups.set i g := rfl
@[simp] theorem State.setGroup_ducks (i : Fin 15) (g : GroupView) : (s.setGroup i g).ducks = s.ducks := rfl
@[simp] theorem State.setGroup_monitoring (i : Fin 15) (g : GroupView) : (s.setGroup i g).monitoring = s.monitoring := rfl
@[simp] theorem State.setGroup_pgm (i : Fin 15) (g : GroupView) : (s.setGroup i g).pgm = s.pgm := rfl
@[simp] theorem State.setGroup_floor (i : Fin 15) (g : GroupView) : (s.setGroup i g).floor = s.floor := rfl
@[simp] theorem State.setGroup_queue (i : Fin 15) (g : GroupView) : (s.setGroup i g).queue = s.queue := rfl
@[simp] theorem State.setGroup_tx (i : Fin 15) (g : GroupView) : (s.setGroup i g).tx = s.tx := rfl
@[simp] theorem State.setGroup_rx (i : Fin 15) (g : GroupView) : (s.setGroup i g).rx = s.rx := rfl
@[simp] theorem State.setGroup_idleCount (i : Fin 15) (g : GroupView) : (s.setGroup i g).idleCount = s.idleCount := rfl
@[simp] theorem State.setGroup_echoed (i : Fin 15) (g : GroupView) : (s.setGroup i g).echoed = s.echoed := rfl
@[simp] theorem State.setGroup_received (i : Fin 15) (g : GroupView) : (s.setGroup i g).received = s.received := rfl
@[simp] theorem State.setGroup_flags (i : Fin 15) (g : GroupView) : (s.setGroup i g).flags = s.flags := rfl
@[simp] theorem State.setGroup_fresh (i : Fin 15) (g : GroupView) : (s.setGroup i g).fresh = s.fresh := rfl
@[simp] theorem State.setGroup_choices (i : Fin 15) (g : GroupView) : (s.setGroup i g).choices = s.choices := rfl
@[simp] theorem State.setGroup_pending (i : Fin 15) (g : GroupView) : (s.setGroup i g).pending = s.pending := rfl

/-! ## latch -/

@[simp] theorem State.latch_mode (f : Flag) : (s.latch f).mode = s.mode := rfl
@[simp] theorem State.latch_load (f : Flag) : (s.latch f).load = s.load := rfl
@[simp] theorem State.latch_join (f : Flag) : (s.latch f).join = s.join := rfl
@[simp] theorem State.latch_cfg (f : Flag) : (s.latch f).cfg = s.cfg := rfl
@[simp] theorem State.latch_configDefaults (f : Flag) : (s.latch f).configDefaults = s.configDefaults := rfl
@[simp] theorem State.latch_badRecords (f : Flag) : (s.latch f).badRecords = s.badRecords := rfl
@[simp] theorem State.latch_cues (f : Flag) : (s.latch f).cues = s.cues := rfl
@[simp] theorem State.latch_tmb (f : Flag) : (s.latch f).tmb = s.tmb := rfl
@[simp] theorem State.latch_lines (f : Flag) : (s.latch f).lines = s.lines := rfl
@[simp] theorem State.latch_remote (f : Flag) : (s.latch f).remote = s.remote := rfl
@[simp] theorem State.latch_pointer (f : Flag) : (s.latch f).pointer = s.pointer := rfl
@[simp] theorem State.latch_outcomes (f : Flag) : (s.latch f).outcomes = s.outcomes := rfl
@[simp] theorem State.latch_passesDue (f : Flag) : (s.latch f).passesDue = s.passesDue := rfl
@[simp] theorem State.latch_voices (f : Flag) : (s.latch f).voices = s.voices := rfl
@[simp] theorem State.latch_startCounter (f : Flag) : (s.latch f).startCounter = s.startCounter := rfl
@[simp] theorem State.latch_releasing (f : Flag) : (s.latch f).releasing = s.releasing := rfl
@[simp] theorem State.latch_owedEnd (f : Flag) : (s.latch f).owedEnd = s.owedEnd := rfl
@[simp] theorem State.latch_link (f : Flag) : (s.latch f).link = s.link := rfl
@[simp] theorem State.latch_groups (f : Flag) : (s.latch f).groups = s.groups := rfl
@[simp] theorem State.latch_ducks (f : Flag) : (s.latch f).ducks = s.ducks := rfl
@[simp] theorem State.latch_monitoring (f : Flag) : (s.latch f).monitoring = s.monitoring := rfl
@[simp] theorem State.latch_pgm (f : Flag) : (s.latch f).pgm = s.pgm := rfl
@[simp] theorem State.latch_floor (f : Flag) : (s.latch f).floor = s.floor := rfl
@[simp] theorem State.latch_queue (f : Flag) : (s.latch f).queue = s.queue := rfl
@[simp] theorem State.latch_tx (f : Flag) : (s.latch f).tx = s.tx := rfl
@[simp] theorem State.latch_rx (f : Flag) : (s.latch f).rx = s.rx := rfl
@[simp] theorem State.latch_idleCount (f : Flag) : (s.latch f).idleCount = s.idleCount := rfl
@[simp] theorem State.latch_echoed (f : Flag) : (s.latch f).echoed = s.echoed := rfl
@[simp] theorem State.latch_received (f : Flag) : (s.latch f).received = s.received := rfl
@[simp] theorem State.latch_flags (f : Flag) : (s.latch f).flags = s.flags.set f.place { set := true, fresh := true } := rfl
@[simp] theorem State.latch_fresh (f : Flag) : (s.latch f).fresh = s.fresh := rfl
@[simp] theorem State.latch_choices (f : Flag) : (s.latch f).choices = s.choices := rfl
@[simp] theorem State.latch_pending (f : Flag) : (s.latch f).pending = s.pending := rfl

/-! ## takeOut -/

@[simp] theorem State.takeOut_mode (p : Frame → Bool) : (s.takeOut p).mode = s.mode := rfl
@[simp] theorem State.takeOut_load (p : Frame → Bool) : (s.takeOut p).load = s.load := rfl
@[simp] theorem State.takeOut_join (p : Frame → Bool) : (s.takeOut p).join = s.join := rfl
@[simp] theorem State.takeOut_cfg (p : Frame → Bool) : (s.takeOut p).cfg = s.cfg := rfl
@[simp] theorem State.takeOut_configDefaults (p : Frame → Bool) : (s.takeOut p).configDefaults = s.configDefaults := rfl
@[simp] theorem State.takeOut_badRecords (p : Frame → Bool) : (s.takeOut p).badRecords = s.badRecords := rfl
@[simp] theorem State.takeOut_cues (p : Frame → Bool) : (s.takeOut p).cues = s.cues := rfl
@[simp] theorem State.takeOut_tmb (p : Frame → Bool) : (s.takeOut p).tmb = s.tmb := rfl
@[simp] theorem State.takeOut_lines (p : Frame → Bool) : (s.takeOut p).lines = s.lines := rfl
@[simp] theorem State.takeOut_remote (p : Frame → Bool) : (s.takeOut p).remote = s.remote := rfl
@[simp] theorem State.takeOut_pointer (p : Frame → Bool) : (s.takeOut p).pointer = s.pointer := rfl
@[simp] theorem State.takeOut_outcomes (p : Frame → Bool) : (s.takeOut p).outcomes = s.outcomes := rfl
@[simp] theorem State.takeOut_passesDue (p : Frame → Bool) : (s.takeOut p).passesDue = s.passesDue := rfl
@[simp] theorem State.takeOut_voices (p : Frame → Bool) : (s.takeOut p).voices = s.voices := rfl
@[simp] theorem State.takeOut_startCounter (p : Frame → Bool) : (s.takeOut p).startCounter = s.startCounter := rfl
@[simp] theorem State.takeOut_releasing (p : Frame → Bool) : (s.takeOut p).releasing = s.releasing := rfl
@[simp] theorem State.takeOut_owedEnd (p : Frame → Bool) : (s.takeOut p).owedEnd = s.owedEnd := rfl
@[simp] theorem State.takeOut_link (p : Frame → Bool) : (s.takeOut p).link = s.link := rfl
@[simp] theorem State.takeOut_groups (p : Frame → Bool) : (s.takeOut p).groups = s.groups := rfl
@[simp] theorem State.takeOut_ducks (p : Frame → Bool) : (s.takeOut p).ducks = s.ducks := rfl
@[simp] theorem State.takeOut_monitoring (p : Frame → Bool) : (s.takeOut p).monitoring = s.monitoring := rfl
@[simp] theorem State.takeOut_pgm (p : Frame → Bool) : (s.takeOut p).pgm = s.pgm := rfl
@[simp] theorem State.takeOut_floor (p : Frame → Bool) : (s.takeOut p).floor = s.floor := rfl
@[simp] theorem State.takeOut_queue (p : Frame → Bool) : (s.takeOut p).queue = s.queue.filter fun e => !(e.waiting && p e.frame) := rfl
@[simp] theorem State.takeOut_tx (p : Frame → Bool) : (s.takeOut p).tx = s.tx := rfl
@[simp] theorem State.takeOut_rx (p : Frame → Bool) : (s.takeOut p).rx = s.rx := rfl
@[simp] theorem State.takeOut_idleCount (p : Frame → Bool) : (s.takeOut p).idleCount = s.idleCount := rfl
@[simp] theorem State.takeOut_echoed (p : Frame → Bool) : (s.takeOut p).echoed = s.echoed := rfl
@[simp] theorem State.takeOut_received (p : Frame → Bool) : (s.takeOut p).received = s.received := rfl
@[simp] theorem State.takeOut_flags (p : Frame → Bool) : (s.takeOut p).flags = s.flags := rfl
@[simp] theorem State.takeOut_fresh (p : Frame → Bool) : (s.takeOut p).fresh = s.fresh := rfl
@[simp] theorem State.takeOut_choices (p : Frame → Bool) : (s.takeOut p).choices = s.choices := rfl
@[simp] theorem State.takeOut_pending (p : Frame → Bool) : (s.takeOut p).pending = s.pending := rfl

/-! ## Reads after writes -/

/-- A tag is a number of eight bits (R49). -/
theorem State.tag_lt (v : Fin 8) : s.tag v < 256 := Nat.mod_lt _ (by omega)

@[simp] theorem State.voice_setVoice_self (v : Fin 8) (w : Voice) : (s.setVoice v w).voice v = w := by
  simp [State.voice]

theorem State.voice_setVoice (u v : Fin 8) (w : Voice) :
    (s.setVoice v w).voice u = if v = u then w else s.voice u := by
  simp [State.voice, Table.get_set]

@[simp] theorem State.voice_setVoice_ne {u v : Fin 8} (w : Voice) (h : v ≠ u) : (s.setVoice v w).voice u = s.voice u := by
  simp [State.voice, h]

@[simp] theorem State.line_setLine_self (n : Fin 8) (l : Line) : (s.setLine n l).line n = l := by
  simp [State.line]

theorem State.line_setLine (m n : Fin 8) (l : Line) : (s.setLine n l).line m = if n = m then l else s.line m := by
  simp [State.line, Table.get_set]

@[simp] theorem State.line_setLine_ne {m n : Fin 8} (l : Line) (h : n ≠ m) : (s.setLine n l).line m = s.line m := by
  simp [State.line, h]

@[simp] theorem State.voice_setLine (u n : Fin 8) (l : Line) : (s.setLine n l).voice u = s.voice u := rfl
@[simp] theorem State.voice_setGroup (u : Fin 8) (i : Fin 15) (g : GroupView) : (s.setGroup i g).voice u = s.voice u := rfl
@[simp] theorem State.voice_latch (u : Fin 8) (f : Flag) : (s.latch f).voice u = s.voice u := rfl
@[simp] theorem State.voice_takeOut (u : Fin 8) (p : Frame → Bool) : (s.takeOut p).voice u = s.voice u := rfl
@[simp] theorem State.line_setVoice (n v : Fin 8) (w : Voice) : (s.setVoice v w).line n = s.line n := rfl
@[simp] theorem State.line_setGroup (n : Fin 8) (i : Fin 15) (g : GroupView) : (s.setGroup i g).line n = s.line n := rfl
@[simp] theorem State.line_latch (n : Fin 8) (f : Flag) : (s.latch f).line n = s.line n := rfl
@[simp] theorem State.line_takeOut (n : Fin 8) (p : Frame → Bool) : (s.takeOut p).line n = s.line n := rfl

@[simp] theorem State.flag_latch_self (f : Flag) : (s.latch f).flag f = true := by
  simp [State.flag]

@[simp] theorem State.newMark_latch_self (f : Flag) : (s.latch f).newMark f = true := by
  simp [State.newMark]

theorem Flag.place_ne {f g : Flag} (h : f ≠ g) : f.place ≠ g.place := by
  revert h; cases f <;> cases g <;> decide

@[simp] theorem State.flag_latch_ne {f g : Flag} (h : f ≠ g) : (s.latch f).flag g = s.flag g := by
  simp [State.flag, Flag.place_ne h]

@[simp] theorem State.pair_setPair_self (o : OutPair) (p : Pair) : (s.setPair o p).pair o = p := by
  cases o <;> rfl

end Sys2Proof.Machine
end

