-- ==== Sys2Proof/Laws/Queue.lean ====
section
/-! SUPPORT. What offering, placing, evicting and taking out do to the transmit queue, and what they leave (R144 to R150). -/

namespace Sys2Proof.Machine

variable {s : State}

/-! ## Placing an entry in a list -/

theorem placeEntry_length (e : Entry) (q : List Entry) : (placeEntry e q).length = q.length + 1 := by
  induction q with
  | nil => rfl
  | cons x rest ih => unfold placeEntry; split <;> simp [ih]

theorem placeEntry_perm (e : Entry) (q : List Entry) : (placeEntry e q).Perm (e :: q) := by
  induction q with
  | nil => exact List.Perm.refl _
  | cons x rest ih =>
    unfold placeEntry; split
    · exact List.Perm.refl _
    · exact ((List.Perm.cons x ih).trans (List.Perm.swap e x rest))

theorem placeEntry_sorted (e : Entry) (q : List Entry) (h : q.Pairwise fun a b => a.kind ≤ b.kind) :
    (placeEntry e q).Pairwise fun a b => a.kind ≤ b.kind := by
  induction q with
  | nil => simp [placeEntry]
  | cons x rest ih =>
    unfold placeEntry
    rw [List.pairwise_cons] at h
    split
    next hk =>
      rw [List.pairwise_cons, List.pairwise_cons]
      refine ⟨?_, h⟩
      intro b hb
      rcases List.mem_cons.mp hb with rfl | hb
      · omega
      · exact Nat.le_trans (by omega) (h.1 b hb)
    next hk =>
      rw [List.pairwise_cons]
      refine ⟨?_, ih h.2⟩
      intro b hb
      rcases List.mem_cons.mp ((placeEntry_perm e rest).mem_iff.mp hb) with rfl | hb
      · omega
      · exact h.1 b hb

theorem placeEntry_flights (e : Entry) (q : List Entry) (he : e.inFlight = false) : flights (placeEntry e q) = flights q := by
  unfold flights
  rw [(placeEntry_perm e q).countP_eq]
  simp [he]

theorem placeEntry_statuses (e : Entry) (q : List Entry) :
    statuses (placeEntry e q) = statuses q + if e.frame.isStatus then 1 else 0 := by
  unfold statuses
  rw [(placeEntry_perm e q).countP_eq]
  by_cases h : e.frame.isStatus <;> simp [h]

/-! ## Dropping the last waiting entry -/

/-- The queue without its last waiting entry is a sublist of it. -/
theorem dropLastWaiting_sublist (q : List Entry) : (dropLastWaiting q).Sublist q := by
  unfold dropLastWaiting
  split
  next i _ =>
    have h := List.eraseIdx_sublist q.reverse i
    have h2 := h.reverse
    rwa [List.reverse_reverse] at h2
  · exact List.Sublist.refl _

/-- Where some entry waits, one entry goes. -/
theorem dropLastWaiting_length (q : List Entry) (k : Nat) (x : Entry) (h : victimOf k q = some x) :
    (dropLastWaiting q).length + 1 = q.length := by
  have hex : ∃ e ∈ q, e.waiting = true := by
    unfold victimOf at h
    split at h
    next e he =>
      have hm := List.mem_of_getLast? he
      rw [List.mem_filter] at hm
      exact ⟨e, hm.1, hm.2⟩
    · cases h
  unfold dropLastWaiting
  split
  next i hi =>
    have hlt : i < q.reverse.length := by
      rw [List.findIdx?_eq_some_iff_findIdx_eq] at hi
      exact hi.1
    have hq : q.reverse.length = q.length := List.length_reverse
    rw [List.length_reverse, List.length_eraseIdx, if_pos hlt]
    omega
  next hi =>
    obtain ⟨e, he, hw⟩ := hex
    rw [List.findIdx?_eq_none_iff] at hi
    have := hi e (List.mem_reverse.mpr he)
    simp [hw] at this

/-- Sublists keep the laws of the queue. -/
theorem QueueLaw.sublist {q r : List Entry} (h : QueueLaw q) (hs : r.Sublist q) : QueueLaw r where
  size := Nat.le_trans hs.length_le h.size
  flight := Nat.le_trans (hs.countP_le) h.flight
  order := h.order.sublist hs
  status := Nat.le_trans (hs.countP_le) h.status
  startEnd := fun tag ⟨a, ha, hf⟩ b hb => h.startEnd tag ⟨a, hs.subset ha, hf⟩ b (hs.subset hb)
  hold := fun tag => Nat.le_trans (hs.countP_le) (h.hold tag)

/-- A frame that may join the entries of a queue (R144): it is no second STATUS, no END beside its START, no START beside its END and no
second HOLD. -/
structure Fits (f : Frame) (q : List Entry) : Prop where
  status : f.isStatus = true → statuses q = 0
  starts : ∀ tag : Byte, f.isEndOf tag.toNat = true → ∀ a ∈ q, a.frame.isStartOf tag.toNat = false
  ends : ∀ tag : Byte, f.isStartOf tag.toNat = true → ∀ a ∈ q, a.frame.isEndOf tag.toNat = false
  hold : ∀ tag : Byte, f.isHoldOf tag.toNat = true → holds tag.toNat q = 0

theorem Fits.sublist {f : Frame} {q r : List Entry} (h : Fits f q) (hs : r.Sublist q) : Fits f r where
  status := fun k => Nat.le_zero.mp (h.status k ▸ hs.countP_le)
  starts := fun tag k a ha => h.starts tag k a (hs.subset ha)
  ends := fun tag k a ha => h.ends tag k a (hs.subset ha)
  hold := fun tag k => Nat.le_zero.mp (h.hold tag k ▸ hs.countP_le)

/-- A waiting entry whose frame fits, placed where there is room, keeps the laws. -/
theorem QueueLaw.placeEntry {q : List Entry} (h : QueueLaw q) (e : Entry) (he : e.inFlight = false)
    (hroom : q.length < Config.queueSize) (hfit : Fits e.frame q) : QueueLaw (placeEntry e q) where
  size := by rw [placeEntry_length]; omega
  flight := by rw [placeEntry_flights e q he]; exact h.flight
  order := placeEntry_sorted e q h.order
  status := by
    rw [placeEntry_statuses]
    split
    next hs => rw [hfit.status hs]
    · simpa using h.status
  startEnd := by
    rintro tag ⟨a, ha, hf⟩ b hb
    rw [(placeEntry_perm e q).mem_iff, List.mem_cons] at ha hb
    rcases ha with rfl | ha <;> rcases hb with rfl | hb
    · cases hk : b.frame <;> simp_all [Frame.isStartOf, Frame.isEndOf]
    · exact hfit.ends tag hf b hb
    · by_contra hc
      rw [hfit.starts tag (by simpa using hc) a ha] at hf
      exact Bool.false_ne_true hf
    · exact h.startEnd tag ⟨a, ha, hf⟩ b hb
  hold := fun tag => by
    unfold holds
    rw [(placeEntry_perm e q).countP_eq]
    by_cases hk : e.frame.isHoldOf tag.toNat
    · have h0 := hfit.hold tag hk
      unfold holds at h0
      simp [hk, h0]
    · have h1 := h.hold tag
      unfold holds at h1
      simpa [hk] using h1

/-- A map of the entries that changes neither kind nor tag keeps the laws. -/
theorem QueueLaw.map {q : List Entry} (h : QueueLaw q) (f : Entry → Entry) (hk : ∀ e, (f e).kind = e.kind)
    (hf : flights (q.map f) ≤ 1) (hst : ∀ e, (f e).frame.isStatus = e.frame.isStatus)
    (ht : ∀ e tag, (f e).frame.isStartOf tag = e.frame.isStartOf tag ∧ (f e).frame.isEndOf tag = e.frame.isEndOf tag ∧
      (f e).frame.isHoldOf tag = e.frame.isHoldOf tag) : QueueLaw (q.map f) where
  size := by rw [List.length_map]; exact h.size
  flight := hf
  order := by
    rw [List.pairwise_map]
    exact h.order.imp (by intro a b hab; rw [hk, hk]; exact hab)
  status := by
    have : statuses (q.map f) = statuses q := by
      unfold statuses
      rw [List.countP_map]
      congr 1
      funext e
      simp [hst]
    rw [this]; exact h.status
  startEnd := by
    rintro tag ⟨a, ha, hs⟩ b hb
    obtain ⟨x, hx, rfl⟩ := List.mem_map.mp ha
    obtain ⟨y, hy, rfl⟩ := List.mem_map.mp hb
    rw [(ht x _).1] at hs
    rw [(ht y _).2.1]
    exact h.startEnd tag ⟨x, hx, hs⟩ y hy
  hold := fun tag => by
    have : holds tag.toNat (q.map f) = holds tag.toNat q := by
      unfold holds
      rw [List.countP_map]
      congr 1
      funext e
      exact (ht e _).2.2
    rw [this]; exact h.hold tag

theorem isStatus_iff_kind (f : Frame) : f.isStatus = true ↔ f.kind = 11 := by
  cases f <;> simp [Frame.isStatus, Frame.kind]

theorem setHold_kind (tag : Nat) (h : Byte) (e : Entry) : (setHold tag h e).kind = e.kind := by
  unfold setHold
  split
  · rfl
  · split
    next hf => split <;> simp [Entry.kind, hf, Frame.kind]
    next hf => split <;> simp [Entry.kind, hf, Frame.kind]
    · rfl

theorem setHold_inFlight (tag : Nat) (h : Byte) (e : Entry) : (setHold tag h e).inFlight = e.inFlight := by
  unfold setHold
  split
  · rfl
  · split
    · split <;> rfl
    · split <;> rfl
    · rfl

/-- Replacing a hold leaves the tags of START, END and HOLD. -/
theorem setHold_tags (tag : Nat) (h : Byte) (e : Entry) (t : Nat) :
    (setHold tag h e).frame.isStartOf t = e.frame.isStartOf t ∧ (setHold tag h e).frame.isEndOf t = e.frame.isEndOf t ∧
      (setHold tag h e).frame.isHoldOf t = e.frame.isHoldOf t := by
  unfold setHold
  split
  · exact ⟨rfl, rfl, rfl⟩
  · split
    next hf => split <;> simp [hf, Frame.isStartOf, Frame.isEndOf, Frame.isHoldOf]
    next hf => split <;> simp [hf, Frame.isStartOf, Frame.isEndOf, Frame.isHoldOf]
    · exact ⟨rfl, rfl, rfl⟩

theorem isStatus_of_kind {f g : Frame} (h : f.kind = g.kind) : f.isStatus = g.isStatus := by
  rw [Bool.eq_iff_iff, isStatus_iff_kind, isStatus_iff_kind, h]

/-! ## The offer -/

/-- The entry that place makes. -/
theorem place_cases (f : Frame) (key : Nat) :
    (s.queue.length < Config.queueSize ∧
      s.place f key = ({ s with queue := placeEntry { frame := f, key := key, attempts := 0, inFlight := false } s.queue }, .placed)) ∨
    (Config.queueSize ≤ s.queue.length ∧ ∃ x, victimOf f.kind s.queue = some x ∧
      s.place f key =
        ((({ s with
            queue := placeEntry { frame := f, key := key, attempts := 0, inFlight := false } (dropLastWaiting s.queue) }.latch
            .txqDrop).evicted x.frame), .placed)) ∨
    (Config.queueSize ≤ s.queue.length ∧ victimOf f.kind s.queue = none ∧ s.place f key = (s.latch .txqDrop, .lost)) := by
  unfold State.place
  dsimp only
  split
  next h => exact Or.inl ⟨h, rfl⟩
  next h =>
    refine Or.inr ?_
    split
    next x hx => exact Or.inl ⟨by omega, x, hx, rfl⟩
    next hx => exact Or.inr ⟨by omega, hx, rfl⟩

/-- What a loss touches: voices only. -/
theorem loseStart_eq (tag : Nat) : ∃ t, s.loseStart tag = { s with voices := t } := by
  unfold State.loseStart
  dsimp only
  split
  · exact ⟨_, rfl⟩
  · exact ⟨s.voices, rfl⟩

theorem evicted_eq (f : Frame) : ∃ t, s.evicted f = { s with voices := t } := by
  cases f <;> first | exact ⟨s.voices, rfl⟩ | exact loseStart_eq _

/-- An offer touches the queue, the voices (an evicted START's) and the flags, and nothing else. -/
theorem place_eq (f : Frame) (key : Nat) :
    ∃ q v g, (s.place f key).1 = { s with queue := q, voices := v, flags := g } := by
  rcases place_cases (s := s) f key with ⟨_, h⟩ | ⟨_, x, _, h⟩ | ⟨_, _, h⟩ <;> rw [h]
  · exact ⟨_, s.voices, s.flags, rfl⟩
  · obtain ⟨t, ht⟩ := evicted_eq (s := { s with
            queue := placeEntry { frame := f, key := key, attempts := 0, inFlight := false } (dropLastWaiting s.queue) }.latch
            .txqDrop) x.frame
    exact ⟨_, t, _, by rw [ht]; rfl⟩
  · exact ⟨s.queue, s.voices, _, rfl⟩

theorem offerKey_eq (f : Frame) (key : Nat) :
    ∃ q v g, (s.offerKey f key).1 = { s with queue := q, voices := v, flags := g } := by
  cases f <;> unfold State.offerKey <;> dsimp only
  case start g c t em d hd =>
    split
    · exact ⟨s.queue, s.voices, s.flags, rfl⟩
    · obtain ⟨q, v, fl, h⟩ := place_eq (s := s.takeOut (Frame.isEndOf t.toNat)) (.start g c t em d hd) key
      exact ⟨q, v, fl, by rw [h]; rfl⟩
  case endFrame =>
    split
    · exact ⟨_, s.voices, s.flags, rfl⟩
    · exact place_eq _ _
  case hold =>
    split
    · exact ⟨_, s.voices, s.flags, rfl⟩
    · exact place_eq _ _
  case status =>
    split
    · exact ⟨s.queue, s.voices, s.flags, rfl⟩
    · exact place_eq _ _
  all_goals exact place_eq _ _

/-- Placing a frame that fits keeps the laws of the queue. -/
theorem place_law (f : Frame) (key : Nat) (h : QueueLaw s.queue) (hfit : Fits f s.queue) : QueueLaw (s.place f key).1.queue := by
  rcases place_cases (s := s) f key with ⟨hroom, he⟩ | ⟨_, x, hx, he⟩ | ⟨_, _, he⟩ <;> rw [he]
  · exact h.placeEntry _ rfl hroom hfit
  · obtain ⟨t, ht⟩ := evicted_eq (s := { s with
            queue := placeEntry { frame := f, key := key, attempts := 0, inFlight := false } (dropLastWaiting s.queue) }.latch
            .txqDrop) x.frame
    rw [ht]
    have hs := dropLastWaiting_sublist s.queue
    refine (h.sublist hs).placeEntry _ rfl ?_ (hfit.sublist hs)
    have := dropLastWaiting_length s.queue f.kind x hx
    have := h.size
    omega
  · exact h

/-- What the end of an error flag can do: nothing where no frame has been dropped; else the dropped frame leaves and the wire is released
(R140). -/
theorem State.dropOver_cases :
    s.dropPending = false ∧ s.dropOver = s ∨
    s.dropPending = true ∧ s.dropOver = { s with queue := s.queue.filter fun e => !e.dropped, tx := .idle } := by
  unfold State.dropOver
  split
  · exact .inr ⟨‹_›, rfl⟩
  · exact .inl ⟨Bool.eq_false_iff.mpr ‹_›, rfl⟩

theorem dropOver_law (h : QueueLaw s.queue) : QueueLaw s.dropOver.queue := by
  obtain ⟨-, e⟩ | ⟨-, e⟩ := s.dropOver_cases <;> rw [e]
  · exact h
  · exact h.sublist List.filter_sublist

/-- An owner's taking out keeps the laws of the queue. -/
theorem takeOut_law (p : Frame → Bool) (h : QueueLaw s.queue) : QueueLaw (s.takeOut p).queue :=
  h.sublist List.filter_sublist

/-- No entry is as asked, waiting or in flight. -/
theorem none_of_hasFrame {p : Frame → Bool} (h : s.hasFrame p = false) : ∀ a ∈ s.queue, p a.frame = false := by
  simpa [State.hasFrame] using h

/-- No entry is as asked where none that waits is and none in flight is. -/
theorem none_of_parts {p : Frame → Bool} (hw : s.hasWaiting p = false) (hf : s.hasFlying p = false) :
    ∀ a ∈ s.queue, p a.frame = false := by
  simp only [State.hasWaiting, State.hasFlying, List.any_eq_false, Entry.waiting, Bool.and_eq_true, not_and,
    Bool.not_eq_true, Bool.not_eq_true'] at hw hf
  intro a ha
  cases hi : a.inFlight
  · exact hw a ha hi
  · exact hf a ha hi

/-- A frame that is neither STATUS, START, END nor HOLD fits. -/
theorem Fits.plain {f : Frame} {q : List Entry} (hst : f.isStatus = false) (hs : ∀ t, f.isStartOf t = false)
    (he : ∀ t, f.isEndOf t = false) (hh : ∀ t, f.isHoldOf t = false) : Fits f q :=
  ⟨fun k => by simp [hst] at k, fun t k => by simp [he] at k, fun t k => by simp [hs] at k, fun t k => by simp [hh] at k⟩

/-- An offer that an owner may make keeps the laws of the queue (R144 to R148). -/
theorem offerKey_law (f : Frame) (key : Nat) (h : QueueLaw s.queue) (hm : s.mayOffer f) :
    QueueLaw (s.offerKey f key).1.queue := by
  cases f <;> unfold State.offerKey <;> dsimp only
  case start g c t em d hd =>
    split
    · exact h
    next hf =>
      refine place_law _ _ (takeOut_law _ h) ⟨by simp [Frame.isStatus], by simp [Frame.isEndOf], ?_, by simp [Frame.isHoldOf]⟩
      intro tag ht a ha
      have hte : t.toNat = tag.toNat := by simpa [Frame.isStartOf] using ht
      rw [State.takeOut_queue, List.mem_filter, hte] at ha
      have hfl : s.hasFlying (Frame.isEndOf tag.toNat) = false := by rw [← hte]; simpa using hf
      simp only [State.hasFlying, List.any_eq_false, Bool.and_eq_true, not_and, Bool.not_eq_true] at hfl
      have hw := ha.2
      simp only [Entry.waiting, Bool.not_eq_true', Bool.and_eq_false_iff, Bool.not_eq_false'] at hw
      rcases hw with hw | hw
      · exact hfl a ha.1 hw
      · exact hw
  case endFrame t g =>
    split
    · exact takeOut_law _ h
    next hw =>
      refine place_law _ _ h ⟨by simp [Frame.isStatus], ?_, by simp [Frame.isStartOf], by simp [Frame.isHoldOf]⟩
      intro tag ht
      have hte : t.toNat = tag.toNat := by simpa [Frame.isEndOf] using ht
      rw [← hte]
      exact none_of_parts (by simpa using hw) hm
  case hold t hd =>
    split
    · refine h.map _ (setHold_kind _ _) ?_ (fun e => isStatus_of_kind (setHold_kind _ _ e)) (fun e k => setHold_tags _ _ e k)
      have : flights (s.queue.map (setHold t.toNat hd)) = flights s.queue := by
        unfold flights
        rw [List.countP_map]
        congr 1
        funext e
        exact setHold_inFlight _ _ e
      rw [this]; exact h.flight
    · refine place_law _ _ h ⟨by simp [Frame.isStatus], by simp [Frame.isEndOf], by simp [Frame.isStartOf], ?_⟩
      intro tag ht
      have hte : t.toNat = tag.toNat := by simpa [Frame.isHoldOf] using ht
      unfold holds
      rw [List.countP_eq_zero, ← hte]
      intro a ha
      simpa using none_of_hasFrame hm a ha
  case status =>
    split
    · exact h
    next hn =>
      refine place_law _ _ h ⟨fun _ => ?_, by simp [Frame.isEndOf], by simp [Frame.isStartOf], by simp [Frame.isHoldOf]⟩
      unfold statuses
      rw [List.countP_eq_zero]
      intro a ha
      simpa using none_of_hasFrame (by simpa using hn) a ha
  all_goals exact place_law _ _ h (Fits.plain rfl (fun _ => rfl) (fun _ => rfl) (fun _ => rfl))

end Sys2Proof.Machine
end

