-- ==== Sys2Proof/Laws/Stable.lean ====
section
/-! SUPPORT. What holds through every operation on voices and every serving pass: a property that the single updates keep, the
operations keep. -/

namespace Sys2Proof.Machine

/-- A property that every single update made by serving, releasing and freeing keeps. A frame is offered only where its owner
may (`State.mayOffer`), and only in RUN or where the queue holds an entry already. -/
structure Stable (P : State → Prop) : Prop where
  voices : ∀ {s : State} t, P s → P { s with voices := t }
  lines : ∀ {s : State} t, P s → P { s with lines := t }
  groups : ∀ {s : State} t, P s → P { s with groups := t }
  releasing : ∀ {s : State} l, P s → P { s with releasing := l }
  link : ∀ {s : State} l, P s → P { s with link := l }
  owedEnd : ∀ {s : State} o, P s → P { s with owedEnd := o }
  outcomes : ∀ {s : State} o, P s → P { s with outcomes := o }
  pointer : ∀ {s : State} p, P s → P { s with pointer := p }
  passesDue : ∀ {s : State} n, P s → P { s with passesDue := n }
  choices : ∀ {s : State} n, P s → P { s with choices := n }
  startCounter : ∀ {s : State} n, P s → P { s with startCounter := n }
  remote : ∀ {s : State} r, P s → r.Sublist s.remote → P { s with remote := r }
  flags : ∀ {s : State} f, P s → P { s with flags := f }
  takeOut : ∀ {s : State} p, P s → P (s.takeOut p)
  offer : ∀ {s : State} f k, P s → (s.isRun = true ∨ s.queue ≠ []) → s.mayOffer f → P (s.offerKey f k).1

/-! ## Visiting -/

/-- A property kept by `f` is kept by `f` over a list in its order. -/
theorem inOrder_keeps {α : Type} {P : State → Prop} {f : α → State → State} (hf : ∀ a s, P s → P (f a s)) (l : List α)
    {s : State} (h : P s) : P (inOrder f l s) := by
  induction l generalizing s with
  | nil => exact h
  | cons a rest ih => exact ih (hf a s h)

theorem visitFrom_keeps {α : Type} {P : State → Prop} {f : α → State → State} (hf : ∀ a s, P s → P (f a s))
    (hc : ∀ s n, P s → P { s with choices := n }) (n : Nat) (l : List α) {s : State} (h : P s) : P (visitFrom f n l s) := by
  induction n generalizing l s with
  | zero =>
    match l with
    | [] => exact h
    | [a] => exact hf a s h
    | _ :: _ :: _ => exact h
  | succ n ih =>
    match l with
    | [] => exact h
    | [a] => exact hf a s h
    | a :: b :: rest => exact ih _ (hf _ _ (hc _ _ h))

/-- A property kept by `f`, and by the settling of one more free order, is kept by a visit. -/
theorem visit_keeps {α : Type} {P : State → Prop} {f : α → State → State} (hf : ∀ a s, P s → P (f a s))
    (hc : ∀ s n, P s → P { s with choices := n }) (l : List α) {s : State} (h : P s) : P (visit f l s) :=
  visitFrom_keeps hf hc _ l h

variable {P : State → Prop} (hP : Stable P) {s : State}
include hP

/-! ## Single updates -/

theorem Stable.setVoice (v : Fin 8) (w : Voice) (h : P s) : P (s.setVoice v w) := hP.voices _ h
theorem Stable.setLine (n : Fin 8) (l : Line) (h : P s) : P (s.setLine n l) := hP.lines _ h
theorem Stable.setGroup (i : Fin 15) (g : GroupView) (h : P s) : P (s.setGroup i g) := hP.groups _ h
theorem Stable.latch (f : Flag) (h : P s) : P (s.latch f) := hP.flags _ h

theorem Stable.latchIf (c : Bool) (f : Flag) (h : P s) : P (s.latchIf c f) := by
  unfold State.latchIf; split
  · exact hP.latch f h
  · exact h

theorem Stable.recordOutcome (src : Source) (o : RequestOutcome) (h : P s) : P (s.recordOutcome src o) := by
  unfold State.recordOutcome; split
  · exact hP.outcomes _ h
  · exact h

theorem Stable.recordPlayed (src : Source) (h : P s) : P (s.recordPlayed src) := by
  unfold State.recordPlayed; split
  next i _ => exact hP.pointer (i + 1) (hP.outcomes (s.outcomes.set i (some .played)) h)
  · exact h

/-! ## FCH -/

theorem Stable.arbitrate (h : P s) : P s.arbitrate := by
  unfold State.arbitrate
  split
  · exact h
  · split
    · exact hP.link _ (hP.setVoice _ _ h)
    · exact h

theorem Stable.testPrimed (v : Fin 8) (h : P s) : P (s.testPrimed v) := by
  unfold State.testPrimed
  dsimp only
  split
  · exact hP.setVoice _ _ h
  · exact h

theorem Stable.cutTransfer (v : Fin 8) (x : Nat) (h : P s) : P (s.cutTransfer v x) := by
  unfold State.cutTransfer
  split
  · split
    · exact hP.link _ h
    · exact h
  · exact h

theorem Stable.beginTail (v : Fin 8) (h : P s) : P (s.beginTail v) := by
  unfold State.beginTail
  dsimp only
  split
  · exact hP.arbitrate (hP.testPrimed _ (hP.cutTransfer _ _ (hP.setVoice _ _ h)))
  · exact h

/-! ## Announcing and freeing -/

theorem Stable.loseStart (tag : Nat) (h : P s) : P (s.loseStart tag) := by
  unfold State.loseStart
  dsimp only
  split
  · exact hP.setVoice _ _ h
  · exact h

theorem Stable.decideAnnounce (v : Fin 8) (h : P s) : P (s.decideAnnounce v) := by
  unfold State.decideAnnounce
  dsimp only
  split
  next hr =>
    have hrun : s.isRun = true := by
      revert hr; cases s.isRun <;> simp
    have ho := hP.offer (startFrame (s.cueOf (s.voice v)) (s.voice v).cue (s.tag v)) s.cfg.number
      (hP.setVoice v { s.voice v with announce := .queued } h) (Or.inl hrun) trivial
    split <;> rename_i he <;> rw [he] at ho
    · exact hP.loseStart _ ho
    · exact ho
    · exact ho
    · exact ho
  · exact h

theorem Stable.offerRun (f : Frame) (h : P s) (hr : s.isRun = true) (hm : s.mayOffer f) : P (s.offer f) :=
  hP.offer f _ h (Or.inl hr) hm

theorem Stable.settleAnnounce (a : Announce) {tag : Nat} (ht : tag < 256) (group : Nat) (h : P s) :
    P (s.settleAnnounce a tag group) := by
  have hb : (BitVec.ofNat 8 tag).toNat = tag := by simp [Nat.mod_eq_of_lt ht]
  unfold State.settleAnnounce
  split
  · exact h
  · split
    · exact h
    next hr =>
      split
      · exact hP.owedEnd _ h
      next hf => exact hP.offerRun _ h (by simpa using hr) (by simpa [State.mayOffer, endFrameOf, hb] using hf)
  · split
    · exact hP.owedEnd _ h
    next hf =>
      split
      next hw =>
        exact hP.offer _ _ h (Or.inr (by intro he; simp [State.hasWaiting, he] at hw))
          (by simpa [State.mayOffer, endFrameOf, hb] using hf)
      · exact h

theorem Stable.queueRelease (g : Nat) (h : P s) : P (s.queueRelease g) := by
  unfold State.queueRelease
  split
  next hr => exact hP.offerRun _ h (by revert hr; cases s.isRun <;> simp) trivial
  · exact h

theorem Stable.dropHolding (v : Fin 8) (tag : Nat) (i : Fin 15) (h : P s) : P (s.dropHolding v tag i) := by
  unfold State.dropHolding
  dsimp only
  split
  · split
    · exact hP.setGroup _ _ h
    · exact hP.queueRelease _ (hP.setGroup _ _ h)
  · exact h

theorem Stable.clearOwedFor (w : Voice) (h : P s) : P (s.clearOwedFor w) := by
  unfold State.clearOwedFor
  split
  · exact hP.setLine _ _ h
  · exact h

theorem Stable.freeVoice (v : Fin 8) (h : P s) : P (s.freeVoice v) := by
  unfold State.freeVoice
  dsimp only
  apply hP.passesDue
  apply inOrder_keeps
  · intro i t ht
    exact hP.dropHolding v (s.tag v) i ht
  · apply hP.settleAnnounce _ (s.tag_lt v)
    exact hP.link (abandonFor v s.link) (hP.releasing (s.releasing.filter fun x => decide (x ≠ v))
      (hP.setVoice v (Voice.freed (s.voice v).generation) (hP.clearOwedFor (s.voice v) h)))

/-! ## Claims and releases -/

theorem Stable.settleClaim (v : Fin 8) (o : RequestOutcome) (h : P s) : P (s.settleClaim v o) := by
  unfold State.settleClaim
  dsimp only
  split
  · exact hP.recordOutcome _ _ h
  · exact h
  · exact h

theorem Stable.withdraw (v : Fin 8) (o : RequestOutcome) (h : P s) : P (s.withdraw v o) :=
  hP.freeVoice _ (hP.settleClaim _ _ (hP.takeOut _ h))

theorem Stable.releaseVoice (v : Fin 8) (r : Rate) (h : P s) : P (s.releaseVoice v r) := by
  unfold State.releaseVoice
  dsimp only
  split
  · exact h
  · exact h
  · exact hP.beginTail _ h
  · exact hP.freeVoice _ h
  · exact hP.freeVoice _ h
  · exact hP.beginTail _ (hP.releasing _ (hP.setVoice _ _ h))
  · exact hP.freeVoice _ h
  · split
    · exact hP.freeVoice _ h
    · exact hP.releasing _ (hP.setVoice _ _ h)
  · split
    · exact hP.freeVoice _ h
    · exact hP.releasing _ (hP.setVoice _ _ h)
  · split
    · split
      · exact hP.freeVoice _ h
      · exact hP.setVoice _ _ h
    · exact h

theorem Stable.releaseAsLine (v : Fin 8) (h : P s) : P (s.releaseAsLine v) := hP.releaseVoice _ _ h

/-! ## The take -/

theorem Stable.takeSlot (v : Fin 8) (c : Nat) (src : Source) (b : Bool) (h : P s) : P (s.takeSlot v c src b) :=
  hP.startCounter _ (hP.setVoice _ _ h)

theorem Stable.queueClaim (v : Fin 8) (g c : Nat) (h : P s) : P (s.queueClaim v g c) := by
  unfold State.queueClaim
  split
  next hr =>
    have ho := hP.offer (.claim (BitVec.ofNat 8 g) (BitVec.ofNat 8 c)) (claimKey s.cfg.number (s.lastWinner g)) h (Or.inl hr) trivial
    split <;> rename_i he <;> rw [he] at ho
    · exact hP.withdraw _ _ ho
    · exact ho
    · exact ho
    · exact ho
  · exact h

theorem Stable.take (v : Fin 8) (c : Nat) (src : Source) (h : P s) : P (s.take v c src) := by
  unfold State.take
  dsimp only
  split
  · exact hP.queueClaim _ _ _ (hP.takeSlot _ _ _ _ h)
  · exact hP.arbitrate (hP.decideAnnounce _ (hP.recordPlayed _ (hP.takeSlot _ _ _ _ h)))

/-! ## Serving -/

theorem Stable.endRequest (src : Source) (o : RequestOutcome) (h : P s) : P (s.endRequest src o).1 := hP.recordOutcome _ _ h

theorem Stable.expireRequest (src : Source) (h : P s) : P (s.expireRequest src) := hP.latch _ (hP.recordOutcome _ _ h)

theorem Stable.stealFor (p : Nat) (h : P s) : P (s.stealFor p) := by
  unfold State.stealFor
  split
  · exact h
  · split
    · exact hP.releaseVoice _ _ h
    · split
      · exact hP.releaseVoice _ _ h
      · exact h

theorem Stable.stepVoice (c : Nat) (src : Source) (h : P s) : P (s.stepVoice c src).1 := by
  unfold State.stepVoice
  split
  · exact hP.take _ _ _ h
  · split
    · exact hP.expireRequest _ h
    · exact hP.stealFor _ h

theorem Stable.visit {α : Type} {f : α → State → State} (hf : ∀ a t, P t → P (f a t)) (l : List α) (h : P s) : P (visit f l s) :=
  visit_keeps hf (fun _ n => hP.choices n) l h

theorem Stable.stepGroup (c : Nat) (src : Source) (h : P s) : P (s.stepGroup c src).1 := by
  unfold State.stepGroup
  dsimp only
  split
  · exact hP.stepVoice _ _ h
  · split
    · exact hP.stepVoice _ _ (hP.visit (fun _ _ ht => hP.releaseVoice _ _ ht) _ h)
    · split
      · exact hP.stepVoice _ _ h
      · exact hP.endRequest _ _ h
    · split
      · exact hP.stepVoice _ _ h
      · exact hP.endRequest _ _ h

theorem Stable.toggleVoice (v : Fin 8) (h : P s) : P (s.toggleVoice v) := by
  unfold State.toggleVoice
  split
  · exact hP.withdraw _ _ h
  · exact hP.releaseAsLine _ h

theorem Stable.stepRetrigger (c : Nat) (q : Cue) (src : Source) (h : P s) : P (s.stepRetrigger c q src).1 := by
  unfold State.stepRetrigger
  split
  · exact hP.stepGroup _ _ h
  · split
    · exact hP.endRequest _ _ h
    · dsimp only
      split
      · exact hP.endRequest _ _ h
      · exact hP.endRequest _ _ (hP.visit (fun _ _ ht => hP.toggleVoice _ ht) _ h)
    · exact hP.stepGroup _ _ (hP.visit (fun _ _ ht => hP.releaseVoice _ _ ht) _ h)
    · exact hP.stepGroup _ _ h

theorem Stable.decideRequest (c : Nat) (latched : Bool) (src : Source) (h : P s) : P (s.decideRequest c latched src).1 := by
  unfold State.decideRequest
  split
  · exact hP.endRequest _ _ h
  · split
    · split
      · exact h
      · exact hP.endRequest _ _ h
    · split
      · exact hP.endRequest _ _ h
      · exact hP.stepRetrigger _ _ _ h

theorem Stable.serveLine (n : Fin 8) (h : P s) : P (s.serveLine n) := by
  unfold State.serveLine
  split
  · exact h
  next r _ =>
    have hd := hP.decideRequest r.cue r.latched (.line n) h
    split <;> rename_i he <;> rw [he] at hd
    · exact hP.setLine _ _ hd
    · exact hd

theorem Stable.serveRemote (fuel : Nat) (h : P s) : P (State.serveRemote fuel s) := by
  induction fuel generalizing s with
  | zero => exact h
  | succ n ih =>
    unfold State.serveRemote
    split
    · exact h
    next r _ _ =>
      have hd := hP.decideRequest r.cue false .remote h
      split <;> rename_i he <;> rw [he] at hd
      · exact ih (hP.remote _ hd (List.tail_sublist _))
      · exact hd

theorem Stable.servePlace (p : Fin 9) (h : P s) : P (s.servePlace p) := by
  unfold State.servePlace
  split
  · exact hP.serveLine _ h
  · exact hP.serveRemote _ h

/-- One serving pass keeps a stable property. -/
theorem Stable.servePass (h : P s) : P s.servePass := inOrder_keeps (fun p _ ht => hP.servePlace p ht) _ h

theorem Stable.passesFrom (fuel : Nat) (h : P s) : P (State.passesFrom fuel s) := by
  induction fuel generalizing s with
  | zero => exact h
  | succ n ih =>
    unfold State.passesFrom
    split
    · exact h
    · exact ih (hP.servePass (hP.passesDue _ h))

/-- Every pass owed keeps a stable property. -/
theorem Stable.settlePasses (h : P s) : P s.settlePasses := hP.passesFrom _ h

theorem Stable.runPass (h : P s) : P s.runPass := hP.settlePasses (hP.passesDue _ h)

theorem Stable.visitServing {α : Type} {f : α → State → State} (hf : ∀ a t, P t → P (f a t)) (l : List α) (h : P s) :
    P (visitServing f l s) :=
  hP.visit (fun a _ ht => hP.settlePasses (hf a _ ht)) l h

end Sys2Proof.Machine
end

