-- ==== Sys2Proof/Laws/Kept.lean ====
section
/-! SUPPORT. Every operation on voices and every serving pass keeps what `Kept` names, the laws of the queue and the size of the
remote queue, and stays mute in SILENT. -/

namespace Sys2Proof.Machine

theorem Kept.refl (s : State) : Kept s s := ⟨rfl, rfl, rfl, rfl, rfl, rfl, rfl, rfl, rfl, rfl, rfl, rfl, rfl, rfl, rfl, rfl, rfl, rfl, rfl⟩

theorem Kept.trans {s t u : State} (h : Kept s t) (k : Kept t u) : Kept s u where
  mode := k.mode.trans h.mode
  load := k.load.trans h.load
  join := k.join.trans h.join
  cfg := k.cfg.trans h.cfg
  configDefaults := k.configDefaults.trans h.configDefaults
  badRecords := k.badRecords.trans h.badRecords
  cues := k.cues.trans h.cues
  tmb := k.tmb.trans h.tmb
  ducks := k.ducks.trans h.ducks
  monitoring := k.monitoring.trans h.monitoring
  pgm := k.pgm.trans h.pgm
  floor := k.floor.trans h.floor
  tx := k.tx.trans h.tx
  rx := k.rx.trans h.rx
  idleCount := k.idleCount.trans h.idleCount
  echoed := k.echoed.trans h.echoed
  received := k.received.trans h.received
  fresh := k.fresh.trans h.fresh
  pending := k.pending.trans h.pending

theorem offerKey_kept (s : State) (f : Frame) (key : Nat) : Kept s (s.offerKey f key).1 := by
  obtain ⟨q, v, g, h⟩ := offerKey_eq (s := s) f key
  rw [h]
  exact ⟨rfl, rfl, rfl, rfl, rfl, rfl, rfl, rfl, rfl, rfl, rfl, rfl, rfl, rfl, rfl, rfl, rfl, rfl, rfl⟩

theorem offer_kept (s : State) (f : Frame) : Kept s (s.offer f) := offerKey_kept s f _

/-- What serving, releasing and freeing leave alone. -/
theorem kept_stable (s0 : State) : Stable (Kept s0) where
  voices := fun _ h => h.trans ⟨rfl, rfl, rfl, rfl, rfl, rfl, rfl, rfl, rfl, rfl, rfl, rfl, rfl, rfl, rfl, rfl, rfl, rfl, rfl⟩
  lines := fun _ h => h.trans ⟨rfl, rfl, rfl, rfl, rfl, rfl, rfl, rfl, rfl, rfl, rfl, rfl, rfl, rfl, rfl, rfl, rfl, rfl, rfl⟩
  groups := fun _ h => h.trans ⟨rfl, rfl, rfl, rfl, rfl, rfl, rfl, rfl, rfl, rfl, rfl, rfl, rfl, rfl, rfl, rfl, rfl, rfl, rfl⟩
  releasing := fun _ h => h.trans ⟨rfl, rfl, rfl, rfl, rfl, rfl, rfl, rfl, rfl, rfl, rfl, rfl, rfl, rfl, rfl, rfl, rfl, rfl, rfl⟩
  link := fun _ h => h.trans ⟨rfl, rfl, rfl, rfl, rfl, rfl, rfl, rfl, rfl, rfl, rfl, rfl, rfl, rfl, rfl, rfl, rfl, rfl, rfl⟩
  owedEnd := fun _ h => h.trans ⟨rfl, rfl, rfl, rfl, rfl, rfl, rfl, rfl, rfl, rfl, rfl, rfl, rfl, rfl, rfl, rfl, rfl, rfl, rfl⟩
  outcomes := fun _ h => h.trans ⟨rfl, rfl, rfl, rfl, rfl, rfl, rfl, rfl, rfl, rfl, rfl, rfl, rfl, rfl, rfl, rfl, rfl, rfl, rfl⟩
  pointer := fun _ h => h.trans ⟨rfl, rfl, rfl, rfl, rfl, rfl, rfl, rfl, rfl, rfl, rfl, rfl, rfl, rfl, rfl, rfl, rfl, rfl, rfl⟩
  passesDue := fun _ h => h.trans ⟨rfl, rfl, rfl, rfl, rfl, rfl, rfl, rfl, rfl, rfl, rfl, rfl, rfl, rfl, rfl, rfl, rfl, rfl, rfl⟩
  choices := fun _ h => h.trans ⟨rfl, rfl, rfl, rfl, rfl, rfl, rfl, rfl, rfl, rfl, rfl, rfl, rfl, rfl, rfl, rfl, rfl, rfl, rfl⟩
  startCounter := fun _ h => h.trans ⟨rfl, rfl, rfl, rfl, rfl, rfl, rfl, rfl, rfl, rfl, rfl, rfl, rfl, rfl, rfl, rfl, rfl, rfl, rfl⟩
  remote := fun _ h _ => h.trans ⟨rfl, rfl, rfl, rfl, rfl, rfl, rfl, rfl, rfl, rfl, rfl, rfl, rfl, rfl, rfl, rfl, rfl, rfl, rfl⟩
  flags := fun _ h => h.trans ⟨rfl, rfl, rfl, rfl, rfl, rfl, rfl, rfl, rfl, rfl, rfl, rfl, rfl, rfl, rfl, rfl, rfl, rfl, rfl⟩
  takeOut := fun _ h => h.trans ⟨rfl, rfl, rfl, rfl, rfl, rfl, rfl, rfl, rfl, rfl, rfl, rfl, rfl, rfl, rfl, rfl, rfl, rfl, rfl⟩
  offer := fun f k h _ _ => h.trans (offerKey_kept _ f k)

/-- The laws of the transmit queue hold through serving, releasing and freeing (R144). -/
theorem queueLaw_stable : Stable fun s => QueueLaw s.queue where
  voices := fun _ h => h
  lines := fun _ h => h
  groups := fun _ h => h
  releasing := fun _ h => h
  link := fun _ h => h
  owedEnd := fun _ h => h
  outcomes := fun _ h => h
  pointer := fun _ h => h
  passesDue := fun _ h => h
  choices := fun _ h => h
  startCounter := fun _ h => h
  remote := fun _ h _ => h
  flags := fun _ h => h
  takeOut := fun p h => takeOut_law p h
  offer := fun f k h _ hm => offerKey_law f k h hm

/-- The remote queue does not grow through serving, releasing and freeing (R33, R36). -/
theorem remote_stable (n : Nat) : Stable fun s => s.remote.length ≤ n where
  voices := fun _ h => h
  lines := fun _ h => h
  groups := fun _ h => h
  releasing := fun _ h => h
  link := fun _ h => h
  owedEnd := fun _ h => h
  outcomes := fun _ h => h
  pointer := fun _ h => h
  passesDue := fun _ h => h
  choices := fun _ h => h
  startCounter := fun _ h => h
  remote := fun _ h hs => Nat.le_trans hs.length_le h
  flags := fun _ h => h
  takeOut := fun _ h => h
  offer := fun {s} f k h _ _ => by
    obtain ⟨q, v, g, he⟩ := offerKey_eq (s := s) f k
    rw [he]
    exact h

/-- A station in SILENT with nothing queued queues nothing through serving, releasing and freeing (R69, R73, R132). -/
theorem mute_stable : Stable Mute where
  voices := fun _ h => ⟨h.mode, h.queue, h.tx⟩
  lines := fun _ h => ⟨h.mode, h.queue, h.tx⟩
  groups := fun _ h => ⟨h.mode, h.queue, h.tx⟩
  releasing := fun _ h => ⟨h.mode, h.queue, h.tx⟩
  link := fun _ h => ⟨h.mode, h.queue, h.tx⟩
  owedEnd := fun _ h => ⟨h.mode, h.queue, h.tx⟩
  outcomes := fun _ h => ⟨h.mode, h.queue, h.tx⟩
  pointer := fun _ h => ⟨h.mode, h.queue, h.tx⟩
  passesDue := fun _ h => ⟨h.mode, h.queue, h.tx⟩
  choices := fun _ h => ⟨h.mode, h.queue, h.tx⟩
  startCounter := fun _ h => ⟨h.mode, h.queue, h.tx⟩
  remote := fun _ h _ => ⟨h.mode, h.queue, h.tx⟩
  flags := fun _ h => ⟨h.mode, h.queue, h.tx⟩
  takeOut := fun p h => ⟨h.mode, by simp [h.queue], h.tx⟩
  offer := fun {s} f k h hr _ => by
    rcases hr with hr | hr
    · simp [State.isRun, h.mode] at hr
    · exact absurd h.queue hr

/-- An offer puts no entry in flight. -/
theorem offerKey_waiting {s : State} (f : Frame) (key : Nat) (h : ∀ e ∈ s.queue, e.inFlight = false) :
    ∀ e ∈ (s.offerKey f key).1.queue, e.inFlight = false := by
  have hp : ∀ {u : State}, (∀ e ∈ u.queue, e.inFlight = false) → ∀ e ∈ (u.place f key).1.queue, e.inFlight = false := by
    intro u hu
    have hq : ∀ q : List Entry, (∀ e ∈ q, e.inFlight = false) →
        ∀ e ∈ placeEntry (newEntry f key) q, e.inFlight = false := by
      intro q hq e he
      rcases List.mem_cons.mp ((placeEntry_perm _ q).mem_iff.mp he) with rfl | he
      · rfl
      · exact hq e he
    rcases place_cases (s := u) f key with ⟨_, h⟩ | ⟨_, x, _, h⟩ | ⟨_, _, h⟩ <;> rw [h]
    · exact hq _ hu
    · obtain ⟨v, hv⟩ := evicted_eq (s := { u with
        queue := placeEntry { frame := f, key := key, attempts := 0, inFlight := false } (dropLastWaiting u.queue) }.latch .txqDrop) x.frame
      rw [hv]
      exact hq _ fun e he => hu e ((dropLastWaiting_sublist u.queue).subset he)
    · exact hu
  have ht : ∀ p, ∀ e ∈ (s.takeOut p).queue, e.inFlight = false := fun p e he => h e (List.mem_filter.mp he).1
  unfold State.offerKey
  split
  next => split; exacts [ht _, hp h]
  next => split; exacts [h, hp (ht _)]
  next t d =>
    split
    · intro e he
      obtain ⟨x, hx, rfl⟩ := List.mem_map.mp he
      rw [setHold_inFlight]
      exact h x hx
    · exact hp h
  next => split; exacts [h, hp h]
  all_goals exact hp h

/-- The receiver waits for idle while an entry is in flight, through serving, releasing and freeing. -/
theorem wire_stable : Stable WireLaw where
  voices := fun _ h => h
  lines := fun _ h => h
  groups := fun _ h => h
  releasing := fun _ h => h
  link := fun _ h => h
  owedEnd := fun _ h => h
  outcomes := fun _ h => h
  pointer := fun _ h => h
  passesDue := fun _ h => h
  choices := fun _ h => h
  startCounter := fun _ h => h
  remote := fun _ h _ => h
  flags := fun _ h => h
  takeOut := fun _ h hr e he => h hr e (List.mem_filter.mp he).1
  offer := fun {s} f k h _ _ hr => offerKey_waiting f k (h ((offerKey_kept s f k).rx ▸ hr))

/-- Every bound of `Lawful` holds through serving, releasing and freeing. -/
theorem lawful_stable : Stable Lawful := by
  have hk : ∀ {s t : State}, Lawful s → Kept s t → QueueLaw t.queue → t.remote.length ≤ Config.remoteSize → Lawful t := by
    intro s t h k hq hr
    refine ⟨hq, hr, ?_, ?_, ?_, ?_, ?_⟩
    · rw [k.ducks]; exact h.ducks
    · rw [k.ducks, k.cfg]; exact h.foreign
    · rw [k.cfg, k.pgm]; exact h.pgm
    · rw [k.cfg, k.floor]; exact h.floor
    · rw [k.mode, k.pgm, k.floor, k.ducks]; exact h.loading
  constructor
  case remote =>
    intro s r h hs
    exact hk h ⟨rfl, rfl, rfl, rfl, rfl, rfl, rfl, rfl, rfl, rfl, rfl, rfl, rfl, rfl, rfl, rfl, rfl, rfl, rfl⟩ h.queue (Nat.le_trans hs.length_le h.remote)
  case takeOut =>
    intro s p h
    exact hk h ⟨rfl, rfl, rfl, rfl, rfl, rfl, rfl, rfl, rfl, rfl, rfl, rfl, rfl, rfl, rfl, rfl, rfl, rfl, rfl⟩ (takeOut_law p h.queue) h.remote
  case offer =>
    intro s f k h hr hm
    exact hk h (offerKey_kept s f k) (offerKey_law f k h.queue hm) ((remote_stable _).offer f k h.remote hr hm)
  all_goals
    intro s t h
    exact hk h ⟨rfl, rfl, rfl, rfl, rfl, rfl, rfl, rfl, rfl, rfl, rfl, rfl, rfl, rfl, rfl, rfl, rfl, rfl, rfl⟩ h.queue h.remote

end Sys2Proof.Machine
end

