-- ==== Sys2Proof/Laws/Commands.lean ====
section
/-! SUPPORT. The effects of lines, groups, claims, STOP and the all-stop keep every property that the single updates keep. -/

namespace Sys2Proof.Machine

/-- A SEND line may offer what its press queues: no END and no HOLD (R31). -/
theorem mayOffer_pressFrame (t : State) (a : LineAction) {f : Frame} (h : a.pressFrame = some f) : t.mayOffer f := by
  cases a <;> simp only [LineAction.pressFrame, Option.some.injEq, reduceCtorEq] at h <;> subst h <;> trivial

/-- A SEND line may offer what its release queues. -/
theorem mayOffer_releaseFrame (t : State) (a : LineAction) {f : Frame} (h : a.releaseFrame = some f) : t.mayOffer f := by
  cases a <;> simp only [LineAction.releaseFrame, Option.some.injEq, reduceCtorEq] at h
  subst h
  trivial

variable {P : State → Prop} (hP : Stable P) {s : State}
include hP

/-! ## Lines (R24 to R31) -/

theorem Stable.addRequest (n : Fin 8) (c : Nat) (b : Bool) (h : P s) : P (s.addRequest n c b) := hP.runPass (hP.setLine _ _ h)

theorem Stable.beginPenalty (n : Fin 8) (h : P s) : P (s.beginPenalty n) := by
  unfold State.beginPenalty
  split
  · exact h
  · exact hP.setLine _ _ h

theorem Stable.earlyPress (n : Fin 8) (c : Nat) (h : P s) : P (s.earlyPress n c) := by
  unfold State.earlyPress
  split
  · exact h
  · exact hP.addRequest _ _ _ h
  · exact hP.beginPenalty _ h

theorem Stable.pressPlay (n : Fin 8) (c : Nat) (h : P s) : P (s.pressPlay n c) := by
  unfold State.pressPlay
  dsimp only
  have h1 := hP.setLine n { (s.line n).acting true with owedRelease := false } h
  split
  · exact h1
  · split
    · exact h1
    · split
      · exact hP.earlyPress _ _ h1
      · exact hP.addRequest _ _ _ h1

theorem Stable.clearRequest (n : Fin 8) (h : P s) : P (s.clearRequest n) := hP.setLine _ _ h

theorem Stable.withdrawRequest (n : Fin 8) (h : P s) : P (s.withdrawRequest n) := by
  unfold State.withdrawRequest
  split
  · exact hP.clearRequest _ (hP.recordOutcome _ _ h)
  · exact h

theorem Stable.releaseLineVoice (n : Fin 8) (c : Nat) (v : Fin 8) (h : P s) : P (s.releaseLineVoice n c v) := by
  unfold State.releaseLineVoice
  split
  · exact h
  · split
    · exact hP.withdraw _ _ h
    · split
      · exact hP.setLine _ _ h
      · exact hP.releaseAsLine _ h

theorem Stable.releasePlay (n : Fin 8) (c : Nat) (h : P s) : P (s.releasePlay n c) :=
  hP.visitServing (fun _ _ ht => hP.releaseLineVoice _ _ _ ht) _ (hP.withdrawRequest _ (hP.setLine _ _ h))

theorem Stable.sendFrame (f : Option Frame) (hf : ∀ x, f = some x → s.mayOffer x) (h : P s) : P (s.sendFrame f) := by
  unfold State.sendFrame
  split
  next x =>
    split
    next hr => exact hP.offerRun x h hr (hf x rfl)
    · exact h
  · exact h

theorem Stable.pressEvent (n : Fin 8) (h : P s) : P (s.pressEvent n) := by
  unfold State.pressEvent
  split
  · exact hP.pressPlay _ _ h
  · exact hP.sendFrame _ (fun _ hx => mayOffer_pressFrame _ _ hx) (hP.setLine _ _ h)

theorem Stable.releaseEvent (n : Fin 8) (h : P s) : P (s.releaseEvent n) := by
  unfold State.releaseEvent
  split
  · exact hP.releasePlay _ _ h
  · exact hP.sendFrame _ (fun _ hx => mayOffer_releaseFrame _ _ hx) (hP.setLine _ _ h)

theorem Stable.takeLineEvent (n : Fin 8) (h : P s) : P (s.takeLineEvent n) := by
  unfold State.takeLineEvent
  split
  · exact hP.pressEvent _ h
  · exact hP.releaseEvent _ h
  · exact h

theorem Stable.endData (v : Fin 8) (h : P s) : P (s.endData v) := by
  unfold State.endData
  split
  · exact hP.settlePasses (hP.freeVoice _ h)
  · exact h

theorem Stable.expireLine (ripe : Request → Bool) (n : Fin 8) (h : P s) : P (s.expireLine ripe n) := by
  unfold State.expireLine
  split
  · split
    · exact hP.clearRequest _ (hP.expireRequest _ h)
    · exact h
  · exact h

theorem Stable.expireRemote (ripe : RemoteEntry → Bool) (i : Nat) (h : P s) : P (s.expireRemote ripe i) := by
  unfold State.expireRemote
  split
  · split
    · dsimp only
      have h1 := hP.remote (s.remote.eraseIdx i) (hP.expireRequest .remote h) (by
        have he : (s.expireRequest .remote).remote = s.remote := rfl
        rw [he]
        exact List.eraseIdx_sublist _ _)
      split
      · exact hP.runPass h1
      · exact h1
    · exact h
  · exact h

theorem Stable.endPenalty (n : Fin 8) (h : P s) : P (s.endPenalty n) := by
  unfold State.endPenalty
  split
  · exact hP.setLine _ _ h
  · exact h

theorem Stable.sampleLines (levels : Byte) (h : P s) : P (s.sampleLines levels) :=
  inOrder_keeps (fun _ _ ht => hP.setLine _ _ ht) _ h

/-! ## Groups and claims (R74 to R90) -/

theorem Stable.armGroups (g : GroupSet) (h : P s) : P (s.armGroups g) := by
  unfold State.armGroups
  split
  · exact hP.runPass (hP.groups _ h)
  · exact h

theorem Stable.disarmGroups (g : GroupSet) (h : P s) : P (s.disarmGroups g) := by
  unfold State.disarmGroups
  split
  · exact hP.runPass (hP.visitServing (fun _ _ ht => hP.withdraw _ _ ht) _ (hP.groups _ h))
  · exact h

theorem Stable.chokeGroup (g : Nat) (h : P s) : P (s.chokeGroup g) := by
  unfold State.chokeGroup
  split
  · refine hP.visitServing (fun v t ht => ?_) _ h
    split
    · exact hP.releaseVoice _ _ ht
    · exact ht
  · exact h

theorem Stable.applyOwedRelease (v : Fin 8) (src : Source) (h : P s) : P (s.applyOwedRelease v src) := by
  unfold State.applyOwedRelease
  split
  · split
    · exact hP.releaseAsLine _ (hP.setLine _ _ h)
    · exact h
  · exact h

theorem Stable.applyStopMark (v : Fin 8) (h : P s) : P (s.applyStopMark v) := by
  unfold State.applyStopMark
  split
  · exact hP.releaseVoice _ _ h
  · exact h

theorem Stable.claimWon (v : Fin 8) (h : P s) : P (s.claimWon v) := by
  unfold State.claimWon
  dsimp only
  exact hP.applyStopMark _ (hP.applyOwedRelease _ _ (hP.recordPlayed _ (hP.setVoice _ _
    (hP.decideAnnounce _ (hP.arbitrate (hP.setVoice _ _ h))))))

theorem Stable.ownClaim (g : Nat) (h : P s) : P (s.ownClaim g) := by
  unfold State.ownClaim
  split
  · exact h
  · split
    · exact hP.setGroup _ _ h
    · exact hP.settlePasses (hP.claimWon _ (hP.setGroup _ _ h))

theorem Stable.withdrawClaim (g : Nat) (o : RequestOutcome) (h : P s) : P (s.withdrawClaim g o) := by
  unfold State.withdrawClaim
  split
  · split
    · exact hP.settlePasses (hP.withdraw _ _ h)
    · exact h
  · exact h

theorem Stable.queueHeld (g : Nat) (h : P s) : P (s.queueHeld g) := by
  unfold State.queueHeld
  split
  next hr => exact hP.offerRun _ h (by revert hr; cases s.isRun <;> simp) trivial
  · exact h

theorem Stable.foreignClaim (src g : Nat) (h : P s) : P (s.foreignClaim src g) := by
  unfold State.foreignClaim
  split
  · exact h
  · split
    · split
      · exact hP.withdrawClaim _ _ (hP.setGroup _ _ h)
      · split
        · exact hP.queueHeld _ h
        · exact h
    · exact h

theorem Stable.yieldVoice (v : Fin 8) (h : P s) : P (s.yieldVoice v) := by
  unfold State.yieldVoice
  dsimp only
  apply hP.releaseVoice
  split
  · exact hP.recordOutcome _ _ (hP.setVoice _ _ h)
  · exact h
  · exact h

theorem Stable.yieldHolding (held : Option (Fin 8 × Nat)) (h : P s) : P (s.yieldHolding held) := by
  unfold State.yieldHolding
  split
  · split
    · exact hP.settlePasses (hP.yieldVoice _ h)
    · exact h
  · exact h

theorem Stable.foreignHeld (src g : Nat) (h : P s) : P (s.foreignHeld src g) := by
  unfold State.foreignHeld
  split
  · exact h
  next i _ =>
    split
    · dsimp only
      have h1 := hP.withdrawClaim g .lost (hP.takeOut (Frame.keepsGroup g) (hP.setGroup i
        { s.groups.get i with holder := some src, lastWinner := src, holdingVoice := none, holdingLine := none } h))
      split
      · exact hP.yieldHolding _ h1
      · exact h1
    · exact h

theorem Stable.ownHeld (g : Nat) (h : P s) : P (s.ownHeld g) := by
  unfold State.ownHeld
  split
  · exact h
  · split
    · exact hP.setGroup _ _ h
    · exact h

theorem Stable.releaseGroup (g : Nat) (h : P s) : P (s.releaseGroup g) := by
  unfold State.releaseGroup
  split
  · exact h
  next i _ =>
    split
    · dsimp only
      have h1 := hP.setGroup i { s.groups.get i with holder := none, holdingVoice := none, holdingLine := none }
        (hP.takeOut (Frame.keepsGroup g) h)
      split
      · exact hP.runPass h1
      · exact h1
    · exact h

theorem Stable.releaseHeld (i : Fin 15) (h : P s) : P (s.releaseHeld i) := by
  unfold State.releaseHeld
  split
  · exact hP.queueRelease _ h
  · exact h

/-! ## STOP and the all-stop (R35, R70, R71) -/

theorem Stable.stopRequest (c : Nat) (n : Fin 8) (h : P s) : P (s.stopRequest c n) := by
  unfold State.stopRequest
  split
  · split
    · exact hP.withdrawRequest _ h
    · exact h
  · exact h

theorem Stable.withdrawRemote (p : RemoteEntry → Bool) (h : P s) : P (s.withdrawRemote p) := by
  unfold State.withdrawRemote
  split
  · dsimp only
    have h1 := hP.remote (s.remote.filter fun r => !p r) (hP.recordOutcome .remote .withdrawn h) (by
      have he : (s.recordOutcome .remote .withdrawn).remote = s.remote := rfl
      rw [he]
      exact List.filter_sublist)
    split
    · exact hP.runPass h1
    · exact h1
  · exact h

theorem Stable.stopRequests (c : Nat) (h : P s) : P (s.stopRequests c) :=
  hP.withdrawRemote _ (inOrder_keeps (fun n _ ht => hP.stopRequest _ n ht) _ h)

theorem Stable.stopVoice (k : Nat) (v : Fin 8) (h : P s) : P (s.stopVoice k v) := by
  unfold State.stopVoice
  dsimp only
  split
  · exact hP.withdraw _ _ h
  · split
    · exact hP.setVoice _ _ h
    · exact hP.releaseVoice _ _ h

theorem Stable.stopVoices (c k : Nat) (h : P s) : P (s.stopVoices c k) := by
  refine hP.visitServing (fun v t ht => ?_) _ h
  split
  · exact hP.stopVoice _ _ ht
  · exact ht

theorem Stable.stopCue (c k : Nat) (h : P s) : P (s.stopCue c k) := hP.stopVoices _ _ (hP.stopRequests _ h)

theorem Stable.allStopRequests (h : P s) : P s.allStopRequests :=
  hP.withdrawRemote _ (inOrder_keeps (fun n _ ht => hP.setLine _ _ (hP.withdrawRequest n ht)) _ h)

theorem Stable.allStopPart (k : Nat) (p : AllStopPart) (h : P s) : P (s.allStopPart k p) := by
  cases p
  · exact hP.allStopRequests h
  · exact hP.visitServing (fun v _ ht => hP.stopVoice k v ht) _ h
  · exact hP.visit (fun i _ ht => hP.releaseHeld i ht) _ h

/-! ## Boundaries and the owners' parts of a lost or returned frame (R67, R149, R150) -/

theorem Stable.refreshHold (v : Fin 8) (h : P s) : P (s.refreshHold v) := by
  unfold State.refreshHold
  split
  · split
    next hr =>
      rw [Bool.and_eq_true, Bool.not_eq_true'] at hr
      refine hP.offerRun _ h hr.1 ?_
      have hb : (BitVec.ofNat 8 (s.tag v)).toNat = s.tag v := by simp [Nat.mod_eq_of_lt (s.tag_lt v)]
      simpa [State.mayOffer, hb] using hr.2
    · exact h
  · exact h

theorem Stable.countHolds (h : P s) : P s.countHolds :=
  hP.visit (fun v _ ht => hP.refreshHold v ht) _ (hP.voices _ h)

theorem Stable.freeRunOut (h : P s) : P s.freeRunOut := by
  refine hP.visitServing (fun v t ht => ?_) _ h
  split
  · exact hP.freeVoice _ ht
  · exact ht

theorem Stable.heldOff (f : Frame) (h : P s) : P (s.heldOff f) := by
  cases f <;> unfold State.heldOff <;> dsimp only
  case start g c t em d hd =>
    split
    next o _ =>
      split
      · exact hP.owedEnd none (hP.takeOut (Frame.isStartOf o.tag) h)
      · exact h
    · exact h
  case claim =>
    split
    · split
      · exact hP.settlePasses (hP.withdraw _ _ h)
      · exact h
    · exact h
  all_goals exact h

omit hP in
/-- What a sample instant can do to a dropped frame: nothing where there is none; else the free value says whether its error flag is over,
and one free choice has been made (R140; log entry 34). -/
theorem State.flagMayEnd_cases (s : State) :
    s.dropPending = false ∧ s.flagMayEnd = s ∨
    s.dropPending = true ∧
      (s.flagMayEnd = { s with choices := s.choices + 1 } ∨ s.flagMayEnd = { s with choices := s.choices + 1 }.dropOver) := by
  unfold State.flagMayEnd
  split
  · refine .inr ⟨‹_›, ?_⟩
    dsimp only
    split
    · exact .inr rfl
    · exact .inl rfl
  · exact .inl ⟨Bool.eq_false_iff.mpr ‹_›, rfl⟩

omit hP in
/-- A dropped entry keeps its frame and stays out of reach (R140). -/
theorem droppedEntry_eq (e : Entry) : (droppedEntry e).frame = e.frame ∧ (droppedEntry e).inFlight = e.inFlight := by
  unfold droppedEntry
  split <;> exact ⟨rfl, rfl⟩

theorem Stable.ownHold (tag hold : Nat) (h : P s) : P (s.ownHold tag hold) := by
  unfold State.ownHold
  dsimp only
  split
  · split
    · exact hP.setVoice _ _ h
    · exact h
  · exact h
  · exact h

end Sys2Proof.Machine
end

