-- ==== Sys2Proof/Laws/Levels.lean ====
section
/-! SUPPORT. What the operations on one voice's levels leave as it was, and what they set (R58, R94 to R101; log entry 7). -/

namespace Sys2Proof.Machine

variable (w : Voice)

/-! ## A change of rate begins V's steps anew -/

@[simp] theorem Voice.runDown_level (r : Rate) : (w.runDown r).level = w.level := rfl
@[simp] theorem Voice.runDown_target (r : Rate) : (w.runDown r).target = 0 := rfl
@[simp] theorem Voice.runDown_state (r : Rate) : (w.runDown r).state = .releasing := rfl
@[simp] theorem Voice.runDown_rate (r : Rate) : (w.runDown r).rate = some r := rfl
@[simp] theorem Voice.runDown_vCount (r : Rate) : (w.runDown r).vCount = 0 := rfl
@[simp] theorem Voice.runDown_vDone (r : Rate) : (w.runDown r).vDone = false := rfl
@[simp] theorem Voice.runTail_level : w.runTail.level = w.level := rfl
@[simp] theorem Voice.runTail_target : w.runTail.target = w.level := rfl
@[simp] theorem Voice.runTail_vDone : w.runTail.vDone = false := rfl

/-! ## D as it stood before a DUCK_STEP of the coming instant -/

theorem Voice.restoreDuck_of_none (h : w.dBefore = none) : w.restoreDuck = w := by simp [Voice.restoreDuck, h]

@[simp] theorem Voice.restoreDuck_dBefore : w.restoreDuck.dBefore = none := by
  unfold Voice.restoreDuck
  split
  · rfl
  · assumption

/-- `restoreDuck` touches D, its counter and its direction only. -/
theorem Voice.restoreDuck_frame :
    w.restoreDuck =
      { w with
        duck := w.restoreDuck.duck
        dCount := w.restoreDuck.dCount
        dDir := w.restoreDuck.dDir
        dBefore := none } := by
  cases w with
  | mk => unfold Voice.restoreDuck; split <;> simp_all

/-! ## One step of V and of D -/

/-- A step of V touches V and its counter only (R95, R96). -/
theorem Voice.stepV_frame (q : Cue) : w.stepV q = { w with level := (w.stepV q).level, vCount := (w.stepV q).vCount } := by
  unfold Voice.stepV Voice.fadeOnce
  repeat' split
  all_goals rfl

/-- A turn touches the direction of D and its counter only (R101). -/
theorem Voice.turn_frame (target : Nat) :
    w.turn target = { w with dCount := (w.turn target).dCount, dDir := (w.turn target).dDir } := by
  unfold Voice.turn
  split <;> rfl

/-- A step of D touches D, its counter and its direction only (R101). -/
theorem Voice.stepD_frame (c : StationConfig) (target : Nat) :
    w.stepD c target =
      { w with
        duck := (w.stepD c target).duck
        dCount := (w.stepD c target).dCount
        dDir := (w.stepD c target).dDir } := by
  unfold Voice.stepD
  have h := w.turn_frame target
  revert h
  generalize w.turn target = u
  intro h
  dsimp only
  repeat' split
  all_goals (rw [h])

/-- After the instant V is stepped once, whether FADE_STEP came before it or not, and no mark is left (log entry 7). -/
theorem Voice.stepVOnce_frame (q : Cue) :
    w.stepVOnce q =
      { w with
        level := if w.vDone then w.level else (w.stepV q).level
        vCount := if w.vDone then w.vCount else (w.stepV q).vCount
        vDone := false } := by
  unfold Voice.stepVOnce
  split
  · simp_all
  · rw [Voice.stepV_frame]
    simp_all

end Sys2Proof.Machine
end

