-- ==== Sys2Proof/Laws/Lines.lean ====
section
/-! SUPPORT. What the counting, aging and expiry operations of TRG do to one line, and what they leave as it was (R29, R34). -/

namespace Sys2Proof.Machine

/-! ## Penalties (R29; log entry 36) -/

variable (l : Line)

@[simp] theorem Line.countPenalty_accepted : l.countPenalty.accepted = l.accepted := rfl
@[simp] theorem Line.countPenalty_changes : l.countPenalty.changes = l.changes := rfl
@[simp] theorem Line.countPenalty_event : l.countPenalty.event = l.event := rfl
@[simp] theorem Line.countPenalty_request : l.countPenalty.request = l.request := rfl
@[simp] theorem Line.countPenalty_owedRelease : l.countPenalty.owedRelease = l.owedRelease := rfl
@[simp] theorem Line.countPenalty_penaltyNew : l.countPenalty.penaltyNew = false := rfl

theorem Line.countPenalty_of_new (h : l.penaltyNew = true) : l.countPenalty.penalty = l.penalty := by
  simp [Line.countPenalty, h]

theorem Line.countPenalty_of_old (h : l.penaltyNew = false) : l.countPenalty.penalty = l.penalty.map fun p => p - 1 := by
  simp [Line.countPenalty, h]

variable (s : State)

@[simp] theorem State.line_countPenalties (n : Fin 8) : s.countPenalties.line n = (s.line n).countPenalty :=
  Table.get_map _ _ _

/-- Entering PENALTY changes the line alone, and only where the penalty time is not 0. -/
theorem State.beginPenalty_cases (n : Fin 8) :
    s.cfg.penaltyTime = 0 ∧ s.beginPenalty n = s ∨
    s.cfg.penaltyTime ≠ 0 ∧
      s.beginPenalty n = s.setLine n { s.line n with penalty := some s.cfg.penaltyTime, penaltyNew := s.tmb.unitDue } := by
  unfold State.beginPenalty
  split
  · exact .inl ⟨‹_›, rfl⟩
  · exact .inr ⟨‹_›, rfl⟩

/-! ## Aging and expiry (R34) -/

theorem State.ageAtExpiry_of_not_next (aging : Bool) (age : Nat) (h : s.tmb.boundaryNext = false) : s.ageAtExpiry aging age = age := by
  simp [State.ageAtExpiry, h]

theorem State.le_ageAtExpiry (aging : Bool) (age : Nat) : age ≤ s.ageAtExpiry aging age ∧ s.ageAtExpiry aging age ≤ age + 1 := by
  unfold State.ageAtExpiry
  split <;> omega

theorem State.ripe_iff (age : Nat) : s.ripe age = true ↔ s.cfg.expiry ≠ 0 ∧ s.cfg.expiry ≤ age := by simp [State.ripe]

/-- The one thing REQUEST_EXPIRY does to a line: its request leaves it EXPIRED, or nothing changes. -/
theorem State.expireLine_cases (ripe : Request → Bool) (n : Fin 8) :
    (∃ r, (s.line n).request = some r ∧ ripe r = true ∧ s.expireLine ripe n = (s.expireRequest (.line n)).clearRequest n) ∨
    s.expireLine ripe n = s := by
  unfold State.expireLine
  split
  · split
    · exact .inl ⟨_, ‹_›, ‹_›, rfl⟩
    · exact .inr rfl
  · exact .inr rfl

@[simp] theorem State.line_ageRequests_penalty (n : Fin 8) : (s.ageRequests.line n).penalty = (s.line n).penalty := by
  simp [State.line, State.ageRequests]

@[simp] theorem State.line_ageRequests_penaltyNew (n : Fin 8) : (s.ageRequests.line n).penaltyNew = (s.line n).penaltyNew := by
  simp [State.line, State.ageRequests]

end Sys2Proof.Machine
end

