-- ==== Sys2Proof/Tests/Slice0.lean ====
section
/-! SUPPORT. Small tests of the model on the spec's own examples, and a witness for the hypotheses of each statement. -/

namespace Sys2Proof.Tests

set_option Elab.async false

open Sys2Proof Sys2Proof.Machine

/-! ## Fixtures -/

/-- A ONE_SHOT cue on PGM. -/
def sting : Cue :=
  { Cue.blank with length := 1000, level := 200, priority := 3, retrigger := .layer, fadeIn := 1, fadeOut := 2, depth := 48 }

/-- A LOOP_TAIL cue. -/
def bed : Cue := { sting with mode := .loopTail 100 400 }

/-- Station 7 in a mode, with cue 0 PRESENT, group 4 of a mode, and line 0 as configured. -/
def station (m : Mode) (q : Cue) (gm : GroupMode) (l : LineConfig) : State :=
  let cfg : StationConfig :=
    { StationConfig.default with
      number := 7
      groups := StationConfig.default.groups.set 3 { GroupConfig.default with mode := gm }
      lines := StationConfig.default.lines.set 0 l }
  { State.reset with
    mode := m
    join := .done
    load := .directory
    cfg := cfg
    groups := cfg.groups.map GroupView.reset
    cues := (Table.fill 255 CueRecord.absent).set 0 (.present q)
    rx := .idle
    idleCount := 12 }

/-- Line 0 plays cue 0. -/
def playLine : LineConfig := LineConfig.default 0

/-- Line 0 plays cue 0 and is a GATE line. -/
def gateLine : LineConfig := { playLine with gate := true }

/-- The station in RUN with cue `q` and nothing else of note. -/
def inRun (q : Cue) : State := station .run q .none gateLine

/-- A voice of cue 0 from line 0, of generation 3, in a state, at level 100. -/
def voiceIn (st : VoiceState) : Voice :=
  { Voice.freed 3 with state := st, cue := 0, source := .line 0, level := 100, target := 200 }

/-- Slot v holds w. -/
def put (s : State) (v : Fin 8) (w : Voice) : State := s.setVoice v w

/-- Every slot holds w. -/
def full (s : State) (w : Voice) : State := { s with voices := Table.fill 8 w }

/-- The queue holds one entry, in flight or waiting. -/
def queued (s : State) (f : Frame) (flying : Bool) : State :=
  { s with
    queue := [{ frame := f, key := 7, attempts := 0, inFlight := flying }]
    rx := if flying then .seekingIdle else s.rx }

/-- The station is receiving another station's frame. -/
def listening (s : State) : State := { s with rx := .receiving }

/-- What a command leaves; a refusal leaves the station as it was. -/
def after (c : Instr) (s : State) : State :=
  match exec c s with
  | .next t => t
  | .fault _ => s
  | .refused _ => s

/-- What commands leave, one after another. -/
def afterAll : List Instr → State → State
  | [], s => s
  | c :: rest, s => afterAll rest (after c s)

/-! ## Ill-formed operands are refused -/

theorem test_refuses_short_configuration : (Instr.configReadEnd []).wellFormed = false := by decide +kernel
theorem test_refuses_short_directory : (Instr.directoryReadEnd [0]).wellFormed = false := by decide +kernel
theorem test_refuses_empty_read : (Instr.readEnd []).wellFormed = false := by decide +kernel
theorem test_refuses_odd_read : (Instr.readEnd [1, 2, 3]).wellFormed = false := by decide +kernel
theorem test_refuses_long_read : (Instr.readEnd (List.replicate 1026 0)).wellFormed = false := by decide +kernel
theorem test_refuses_long_payload : (Instr.rxUnappliedFrame 12 3 [0, 0, 0, 0, 0, 0, 0]).wellFormed = false := by decide +kernel
theorem test_refuses_long_own_payload : (Instr.rxOwnNumberFrame 12 [0, 0, 0, 0, 0, 0, 0]).wellFormed = false := by
  decide +kernel
theorem test_refuses_long_discard : (Instr.rxDiscard (List.replicate 95 true)).wellFormed = false := by decide +kernel
theorem test_refuses_stale_status : (Instr.rxFreshStatusOwnNumber 0x7F 0 0 0 0 0).wellFormed = false := by decide +kernel
theorem test_exec_refuses_a_short_configuration : exec (.configReadEnd []) State.reset = .refused .malformed := rfl
theorem test_exec_refuses_a_long_payload :
    exec (.rxUnappliedFrame 12 3 [0, 0, 0, 0, 0, 0, 0]) State.reset = .refused .malformed := rfl

/-! ## The spec's worked examples -/

/-- The frame of 10.1.1: an ASK of station 5 to target 0. -/
def ask5 : RawFrame := { kind := 10, key := 5, source := 5, payload := [0] }

/-- 10.1.1: the check value is 3E84h, and a receiver accepts the frame. -/
theorem test_ask_check_value :
    checkValue ask5.headBits = 0x3E84#16 ∧ receive (withSync 0 ask5.contentBits ++ [false, true]) = .accepted ask5 := by
  decide +kernel

/-- 10.1.1: the 50 bits on the wire, with the echo slot left recessive by the sender. -/
theorem test_ask_wire_bits :
    ask5.wireBits.map Bool.toNat =
      [0, 0, 1, 0, 1, 0, 0, 0, 1, 0, 0, 1, 0, 0, 1, 0, 1, 0, 1, 0, 1, 0, 0, 0, 0, 0, 0, 1, 0, 0, 0, 0, 1, 1, 1, 1, 0, 1, 0,
        1, 0, 0, 0, 0, 1, 0, 0, 0, 1, 1] := by
  decide +kernel

/-- 5.4.1: some places of the gain table. -/
theorem test_gain_table : gain 0 = 0 ∧ gain 255 = 32768 ∧ gain 239 = 16384 ∧ gain 231 = 11585 ∧ gain 24 = 1 ∧ gain 25 = 2 := by
  decide +kernel

/-- R96: a cut from 223 reaches 0 at the 28th instant and not at the 27th. -/
theorem test_cut_from_223 :
    let w : Voice := { voiceIn .releasing with level := 223, rate := some .cut, target := 0 }
    (((fun x : Voice => x.stepV sting)^[27] w).level, ((fun x : Voice => x.stepV sting)^[28] w).level) = (7, 0) := by
  decide +kernel

/-- R16: a chunk in a loop of 100 frames that starts 50 frames before loop end is reads of 50, 100, 100 and 6 frames. -/
theorem test_reads_of_a_short_loop :
    (readsFrom { bed with mode := .loop 300 400, length := 400 } none 256 350 256).map (fun r => r.count) = [50, 100, 100, 6] := by
  decide +kernel

/-- R49, R50: the first take of slot 0 after reset gives generation 1, tag 8 and start sequence 0. -/
theorem test_first_take :
    let t := after (.playPress 0) (inRun sting)
    (t.tag 0, (t.voice 0).startSeq, (t.voice 0).state, t.startCounter) = (8, 0, .priming, 1) := by
  decide +kernel

/-- R80: the key of a CLAIM is (s − w − 1) modulo 32. -/
theorem test_claim_key : claimKey 13 12 = 0 ∧ claimKey 11 12 = 30 ∧ claimKey 12 12 = 31 := by decide +kernel


/-- A command that completes leaves `after`. -/
def completes (c : Instr) (s : State) : Bool :=
  match exec c s with
  | .next _ => true
  | .fault _ => false
  | .refused _ => false

theorem next_after (c : Instr) (s : State) (h : completes c s = true) : exec c s = .next (after c s) := by
  unfold completes at h
  unfold after
  split at h <;> simp_all

/-! ## The premises of the statements, as conjunctions that can be decided -/

theorem queueLaw_of {q : List Entry}
    (h : q.length ≤ Config.queueSize ∧ flights q ≤ 1 ∧ (q.Pairwise fun a b => a.kind ≤ b.kind) ∧ statuses q ≤ 1 ∧
      (∀ tag : Byte, (∃ a ∈ q, a.frame.isStartOf tag.toNat = true) → ∀ b ∈ q, b.frame.isEndOf tag.toNat = false) ∧
      ∀ tag : Byte, holds tag.toNat q ≤ 1) : QueueLaw q :=
  ⟨h.1, h.2.1, h.2.2.1, h.2.2.2.1, h.2.2.2.2.1, h.2.2.2.2.2⟩

theorem duckLaw_of {l : List DuckEntry}
    (h : l.length ≤ Config.duckSize ∧ l.Pairwise fun a b => ¬(a.source = b.source ∧ a.tag = b.tag)) : DuckLaw l :=
  ⟨h.1, h.2⟩

theorem lawful_of {s : State} (q : QueueLaw s.queue)
    (h : s.remote.length ≤ Config.remoteSize ∧
      (s.ducks.length ≤ Config.duckSize ∧ s.ducks.Pairwise fun a b => ¬(a.source = b.source ∧ a.tag = b.tag)) ∧
      (∀ e ∈ s.ducks, e.source ≠ s.cfg.number) ∧ s.pgm.attempts ≤ 2 ∧ s.floor.attempts ≤ 2 ∧ s.mode ≠ .loading) : Lawful s where
  queue := q
  remote := h.1
  ducks := duckLaw_of h.2.1
  foreign := h.2.2.1
  pgm := ⟨Nat.le_succ_of_le h.2.2.2.1, fun _ _ => Nat.lt_succ_of_le h.2.2.2.1⟩
  floor := ⟨Nat.le_succ_of_le h.2.2.2.2.1, fun _ _ => Nat.lt_succ_of_le h.2.2.2.2.1⟩
  loading := fun e => absurd e h.2.2.2.2.2

/-- The release rate that a voice may hold is one of R48. -/
def legalRate : Option Rate → Bool
  | some (.fade k) => decide (k ≤ 7)
  | some .cut => true
  | some .tail => true
  | none => true

theorem legal_of {o : Option Rate} (h : legalRate o = true) : ∀ r, o = some r → r.legal := by
  rintro (k | _ | _) rfl
  · exact (of_decide_eq_true h : k ≤ 7)
  · trivial
  · trivial

/-- The fade indices of a record are at most 7. -/
def legalFades : CueRecord → Bool
  | .present q => decide (q.fadeIn ≤ 7 ∧ q.fadeOut ≤ 7)
  | .absent => true
  | .bad => true

theorem fades_of {o : CueRecord} (h : legalFades o = true) : ∀ q, o = .present q → q.fadeIn ≤ 7 ∧ q.fadeOut ≤ 7 := by
  rintro q rfl
  exact of_decide_eq_true h

theorem ranged_of {s : State}
    (h : s.cfg.number ≤ 30 ∧ (∀ v, (s.voice v).generation < 32) ∧ (s.startCounter < 65536 ∧ ∀ v, (s.voice v).startSeq < 65536) ∧
      (∀ v, legalRate (s.voice v).rate = true) ∧ (∀ i, (s.groups.get i).lastWinner ≤ 30) ∧ s.received < 256 ∧
      (∀ c, legalFades (s.cues.get c) = true) ∧ (∀ i, (s.cfg.groups.get i).chokeFade ≤ 7) ∧
      s.tmb.samples ≤ 48 ∧ s.tmb.blocks ≤ 10 ∧ (s.tmb.blocks = 10 → s.tmb.samples = 0) ∧ s.tmb.lamp < 250) : Ranged s where
  number := h.1
  generations := h.2.1
  sequences := h.2.2.1
  rates := fun v => legal_of (h.2.2.2.1 v)
  winners := h.2.2.2.2.1
  received := h.2.2.2.2.2.1
  fades := fun c => fades_of (h.2.2.2.2.2.2.1 c)
  chokes := h.2.2.2.2.2.2.2.1
  timebase :=
    let k := h.2.2.2.2.2.2.2.2
    ⟨k.1, k.2.1, k.2.2.1, k.2.2.2⟩

theorem noRequests_of {s : State} (h : (∀ n, (s.line n).request = none) ∧ s.remote = [] ∧ s.passesDue = 0) : NoRequests s :=
  ⟨h.1, h.2.1, h.2.2⟩

theorem hears_of {s : State} {src : BitVec 5}
    (h : s.mode ≠ .loading ∧ s.flying = none ∧ s.rx = .receiving ∧ src.toNat ≠ 0 ∧ src.toNat ≠ 31 ∧ src.toNat ≠ s.cfg.number) :
    Hears s src :=
  ⟨h.1, h.2.1, h.2.2.1, h.2.2.2.1, h.2.2.2.2.1, h.2.2.2.2.2⟩

theorem wireLaw_of {s : State} (h : s.rx = .seekingIdle ∨ ∀ e ∈ s.queue, e.inFlight = false) : WireLaw s := fun hr =>
  h.resolve_left hr

theorem presses_of {s : State} {n : Fin 8} {c : Byte}
    (h : s.mode ≠ .loading ∧ (s.lineConfig n).action = .play c ∧ (s.line n).penalty = none ∧
      (∀ n, (s.line n).request = none) ∧ s.remote = [] ∧ s.passesDue = 0) : Presses s n c :=
  ⟨h.1, h.2.1, h.2.2.1, noRequests_of h.2.2.2⟩

theorem admitted_of {s : State} {c : Nat} {q : Cue}
    (h : s.record c = .present q ∧ s.armed q.group = true ∧
      (s.groupMode q.group = .firstWins → s.mode = .run ∧ s.holder q.group = none) ∧
      ((∀ u, (s.voice u).state.occupies = true → (s.voice u).cue ≠ c) ∨ q.retrigger = .layer) ∧
      (q.group ≠ 0 → ∀ u, (s.voice u).state.occupies = true → (s.cueOf (s.voice u)).group ≠ q.group)) : Admitted s c q :=
  ⟨h.1, h.2.1, h.2.2.1, h.2.2.2.1, h.2.2.2.2⟩

theorem onlyRequest_of {s : State} {n : Fin 8} {r : Request}
    (h : (s.line n).request = some r ∧ (∀ m, m ≠ n → (s.line m).request = none) ∧ s.remote = [] ∧ s.passesDue = 0) :
    OnlyRequest s n r :=
  ⟨h.1, h.2.1, h.2.2.1, h.2.2.2⟩

theorem lowestFree_of {s : State} {v : Fin 8}
    (h : (s.voice v).state = .free ∧ ∀ u, u < v → (s.voice u).state ≠ .free) : LowestFree s v :=
  ⟨h.1, h.2⟩

theorem onlyClaimant_of {s : State} {g : Nat} {v : Fin 8}
    (h : (s.voice v).state = .claiming ∧ (s.cueOf (s.voice v)).group = g ∧
      ∀ u, (s.voice u).state = .claiming → (s.cueOf (s.voice u)).group = g → u = v) : OnlyClaimant s g v :=
  ⟨h.1, h.2.1, h.2.2⟩

theorem isVictim_of {s : State} {p : Nat} {v : Fin 8}
    (h : (s.voice v).state.fresh = true ∧ s.priorityOf v < p ∧
      ∀ u, u ≠ v → (s.voice u).state.fresh = true → s.priorityOf u < p →
        s.priorityOf v < s.priorityOf u ∨ s.priorityOf v = s.priorityOf u ∧
          (1 ≤ ((s.voice u).startSeq + 65536 - (s.voice v).startSeq) % 65536 ∧
            ((s.voice u).startSeq + 65536 - (s.voice v).startSeq) % 65536 ≤ 32767 ∧
            32768 < ((s.voice v).startSeq + 65536 - (s.voice u).startSeq) % 65536)) : IsVictim s p v where
  state := h.1
  lower := h.2.1
  best := fun u a b c => (h.2.2 u a b c).imp id fun k =>
    ⟨k.1, Or.inl ⟨k.2.1, k.2.2.1⟩, fun o => by unfold Older at o; simp only at o; omega⟩

/-! ## Witnesses: the machine -/

/-- A transfer for slot 0 of generation 3, of one read of one frame. -/
def oneRead (drop : Bool) : Transfer :=
  { slot := 0, generation := 3, format := .mono, abandon := false, reads := [{ address := 0, count := 1, first := 0, drop := drop }] }

/-- The link reads one frame for a PRIMING voice. -/
def reading : State := { put (inRun sting) 0 (voiceIn .priming) with link := some (oneRead false) }

theorem witness_WellFormedCommandsComplete :
    (Instr.readEnd [1, 2]).wellFormed = true ∧
      ∀ bytes, Instr.readEnd [1, 2] = .readEnd bytes → reading.mode ≠ .loading →
        ∀ t r rest, reading.link = some t → t.reads = r :: rest → bytes.length = r.count * t.format.bytes := by
  refine ⟨by decide, ?_⟩
  intro bytes hb _ t r rest ht hr
  obtain rfl : bytes = [1, 2] := by simpa using hb.symm
  obtain rfl : oneRead false = t := by simpa [reading] using ht
  obtain ⟨rfl, rfl⟩ : _ = r ∧ [] = rest := by simpa [oneRead] using hr
  decide +kernel

theorem witness_SettingsFixedOutsideLoading :
    (inRun sting).mode ≠ .loading ∧ Instr.sampleInstant ≠ .reset ∧
      exec .sampleInstant (inRun sting) = .next (after .sampleInstant (inRun sting)) :=
  ⟨by decide, by decide, next_after _ _ (by decide +kernel)⟩

/-- A station in SILENT. -/
def quiet : State := station .silent sting .none playLine

theorem witness_SilentStationStaysMute :
    Mute quiet ∧ Instr.frameBegin ≠ .reset ∧ exec .frameBegin quiet = .next (after .frameBegin quiet) :=
  ⟨⟨by decide, by decide, by decide⟩, by decide, next_after _ _ (by decide +kernel)⟩

theorem witness_EveryStepKeepsTheBounds :
    Lawful { inRun sting with pending := [.sampleInstant] } ∧ WireLaw { inRun sting with pending := [.sampleInstant] } ∧
      step { inRun sting with pending := [.sampleInstant] } = .next (after .sampleInstant (inRun sting)) :=
  ⟨lawful_of (queueLaw_of (by decide +kernel)) (by decide +kernel), wireLaw_of (by decide +kernel),
    next_after .sampleInstant (inRun sting) (by decide +kernel)⟩

theorem witness_EveryStepKeepsTheRanges :
    Ranged { inRun sting with pending := [.sampleInstant] } ∧
      step { inRun sting with pending := [.sampleInstant] } = .next (after .sampleInstant (inRun sting)) :=
  ⟨ranged_of (by decide +kernel), next_after .sampleInstant (inRun sting) (by decide +kernel)⟩

/-! ## Witnesses: start-up and sound -/

/-- R161: right after reset LDR reads the 128 bytes of the configuration block from flash address 0 over one wire. -/
theorem test_first_flash_read : State.reset.flashRead? = some { address := 0, bytes := 128, wide := false } := by decide +kernel

/-- R163: the directory area is at flash address 4096; the default configuration reads it over four wires. -/
theorem test_directory_read :
    { State.reset with load := .directory }.flashRead? = some { address := 4096, bytes := 8160, wide := true } := by decide +kernel

/-- A configuration block of zero bytes with its check value. -/
def zeroBlock : List Byte :=
  let b := List.replicate 126 (0 : Byte)
  b ++ [(checkBytes b).extractLsb' 8 8, (checkBytes b).extractLsb' 0 8]

/-- The station in LOADING, waiting for a read. -/
def loading (stage : LoadStage) : State := { State.reset with load := stage }

set_option maxRecDepth 30000 in
theorem witness_ConfigurationIsTakenOrDefaulted :
    (zeroBlock.length = 128 ∧ (loading .config).mode = .loading ∧ (loading .config).load ≠ .directory ∧
      configAgrees zeroBlock = true) ∧
    ((List.replicate 128 (0 : Byte)).length = 128 ∧ (loading .config).load = .config ∧
      configAgrees (List.replicate 128 0) = false ∧ (loading .configAgain).load = .configAgain) := by
  decide +kernel

/-- A MONO ONE_SHOT record of one frame at level 1 with its check value. -/
def goodRecord : List Byte :=
  let b : List Byte := [0, 0, 0, 0, 1, 0, 0, 0, 0, 0, 0, 0, 0, 1] ++ List.replicate 16 0
  b ++ [(checkBytes b).extractLsb' 8 8, (checkBytes b).extractLsb' 0 8]

theorem witness_RecordsAreClassified :
    natAt (List.replicate 32 255) 0 = 255 ∧
    (natAt (List.replicate 32 0) 0 ≠ 255 ∧ checkAgrees (List.replicate 32 0) 30 = false) ∧
    (natAt goodRecord 0 ≠ 255 ∧ checkAgrees goodRecord 30 = true ∧ classifyRecord goodRecord ≠ .bad) := by
  decide +kernel

theorem witness_DirectoryReadEndsLoading :
    (List.replicate 8160 (255 : Byte)).length = 8160 ∧ (loading .directory).mode = .loading ∧
      (loading .directory).load = .directory := by
  refine ⟨List.length_replicate, ?_⟩
  decide +kernel

/-- A station in its join wait. -/
def joinWait (n : Nat) : State := { station .joining sting .none playLine with join := .waiting n }

theorem witness_JoinWaitEndsInRun :
    ((joinWait 20).mode = .joining ∧ (joinWait 20).join = .waiting 20) ∧ (joinWait 19).join = .waiting 19 := by
  decide +kernel

/-- Slot 0 sounds with one frame, slot 1 underruns, slot 2 primes. -/
def sounding : State :=
  put (put (put (inRun sting) 0 { voiceIn .sounding with buffer := [.mono 5], fetchOffset := 1 }) 1 (voiceIn .sounding)) 2
    (voiceIn .priming)

/-- The same, and slot 3 is being cut from V = 100. -/
def fading : State := put sounding 3 { voiceIn .releasing with rate := some .cut, target := 0 }

/-- A state as it stands when a count of sample instants and of block boundaries has come. -/
def counting (s : State) (samples blocks : Nat) : State := { s with tmb := { s.tmb with samples := samples, blocks := blocks } }

/-- A voice that listens, under a duck of depth 48, and one whose duck is gone. -/
def ducked : State :=
  { put (inRun { sting with listen := 1 }) 0 { voiceIn .sounding with dDir := .rising, dCount := 7 } with
    ducks := [{ source := 3, tag := 8, classes := 1, depth := 48, remaining := 2 }] }

def unducked : State := put (inRun sting) 0 { voiceIn .sounding with duck := 9, dDir := .falling, dCount := 127 }

/-- D moves to D* at once, at an attack index of 0. -/
def duckedAtOnce : State := { ducked with cfg := { ducked.cfg with attack := 0 } }

/-- The station in LOADING, as a boundary is due or not. -/
def loadingAt (samples blocks : Nat) : State := counting (loading .config) samples blocks

theorem witness_SampleInstantPlaysEveryVoice :
    (fading.mode ≠ .loading ∧ fading.tmb.samples < 48 ∧ fading.tmb.blocks < 10 ∧ fading.settled ∧
      (∀ v, (fading.voice v).atEnd (fading.cueOf (fading.voice v)) = false) ∧
      (∀ v, (fading.voice v).state = .releasing → (fading.voice v).rate = some .tail ∨
        (if (fading.voice v).vDone = true then (fading.voice v).level
          else ((fading.voice v).stepV (fading.cueOf (fading.voice v))).level) ≠ 0) ∧
      (fading.voice 0).buffer ≠ [] ∧ (fading.voice 1).buffer = [] ∧ (fading.voice 2).state.plays = false) ∧
    (48 ≤ (counting fading 48 0).tmb.samples ∧ 10 ≤ (counting fading 0 10).tmb.blocks) ∧
    ((loadingAt 47 9).mode = .loading ∧ (loadingAt 47 9).tmb.samples < 48 ∧ (loadingAt 47 9).tmb.blocks < 10 ∧
      (loadingAt 47 9).settled) := by
  unfold State.settled
  decide +kernel

/-- The same premises where D is moving: a code toward D* at the attack index and at the release index, and all the way at index 0. -/
theorem witness_SampleInstantPlaysEveryVoice_duck :
    (∀ s ∈ [ducked, unducked, duckedAtOnce], s.mode ≠ .loading ∧ s.tmb.samples < 48 ∧ s.tmb.blocks < 10 ∧ s.settled ∧
      (∀ v, (s.voice v).atEnd (s.cueOf (s.voice v)) = false) ∧ (∀ v, (s.voice v).state ≠ .releasing)) ∧
    ((ducked.voice 0).duck < duckTarget ducked 0 ∧ ducked.cfg.attack ≠ 0 ∧ 2 ^ (ducked.cfg.attack + 2) ≤ (ducked.voice 0).dCount + 1) ∧
    (duckTarget unducked 0 < (unducked.voice 0).duck ∧ 2 ^ (unducked.cfg.release + 2) ≤ (unducked.voice 0).dCount + 1) ∧
    ((duckedAtOnce.voice 0).duck ≠ duckTarget duckedAtOnce 0 ∧ duckedAtOnce.cfg.attack = 0) := by
  unfold State.settled
  decide +kernel

/-- R101: a duck that rises moves one code when its count comes to 2^(k+2), or all the way at index 0; one that turns counts afresh. -/
theorem test_duck_moves :
    let d := fun s : State => ((after .sampleInstant s).voice 0)
    let turned := put ducked 0 { ducked.voice 0 with duck := 60 }
    ((d ducked).duck, (d ducked).dCount) = (1, 0) ∧ ((d duckedAtOnce).duck, (d duckedAtOnce).dDir) = (48, .atRest) ∧
      ((d turned).duck, (d turned).dCount, (d turned).dDir) = (60, 1, .falling) := by
  decide +kernel

/-- R1: the 48th sample instant of a block makes the boundary due, and no further instant comes before it. -/
theorem test_blocks_hold_48_instants :
    (after .sampleInstant (counting (inRun sting) 47 0)).tmb.samples = 48 ∧
      after .sampleInstant (counting (inRun sting) 48 0) = counting (inRun sting) 48 0 ∧
      after (.blockBoundary 255) (counting (inRun sting) 47 0) = counting (inRun sting) 47 0 ∧
      (after (.blockBoundary 255) (counting (inRun sting) 48 9)).tmb.blocks = 10 := by
  decide +kernel

/-- R118: the word clock is low in the left half and high in the right; the 16 bits come first in each half, most significant first. -/
theorem test_port_lines :
    (portLines (-32768, 1))[0]? = some (true, false) ∧ (portLines (-32768, 1))[1]? = some (false, false) ∧
      (portLines (-32768, 1))[32]? = some (false, true) ∧ (portLines (-32768, 1))[47]? = some (true, true) ∧
      (portLines (-32768, 1)).length = 64 := by
  decide +kernel

/-- R98: a release that follows a FADE_STEP of the same instant is counted from that instant on. -/
theorem test_release_after_a_fade_step :
    let s := afterAll [.fadeStep 0, .playRelease 0, .sampleInstant]
      (put (inRun sting) 0 { voiceIn .sounding with vCount := 7, buffer := [.mono 5] })
    ((s.voice 0).level, (s.voice 0).vCount) = (101, 1) := by
  decide +kernel

/-- Slot 0 is being cut at V = 8. -/
def cutting : State :=
  { put (inRun sting) 0 { voiceIn .releasing with level := 8, rate := some .cut, target := 0 } with releasing := [0] }

theorem witness_FadedOutVoiceIsFreed :
    cutting.mode ≠ .loading ∧ cutting.tmb.samples < 48 ∧ cutting.tmb.blocks < 10 ∧ cutting.settled ∧ NoRequests cutting ∧
      (∀ u, (cutting.voice u).atEnd (cutting.cueOf (cutting.voice u)) = false) ∧
      (cutting.voice 0).state = .releasing ∧ (cutting.voice 0).rate ≠ some .tail ∧
      ((cutting.voice 0).tick (cutting.cueOf (cutting.voice 0)) cutting.cfg (duckTarget cutting 0)).level = 0 ∧
      (∀ u, u ≠ 0 → (cutting.voice u).state ≠ .releasing) := by
  refine ⟨by decide +kernel, by decide +kernel, by decide +kernel, by unfold State.settled; decide +kernel,
    noRequests_of (by decide +kernel), ?_⟩
  decide +kernel

theorem witness_FadeMovesOneCodePerStepLength :
    (voiceIn .sounding).vRate sting = some (.fade 1) ∧ (voiceIn .sounding).level ≠ (voiceIn .sounding).target ∧
      (voiceIn .sounding).vCount + 1 < 2 ^ 3 ∧ 2 ^ 3 ≤ 7 + 1 ∧
      ({ voiceIn .releasing with rate := some (.fade 7), target := 0 } : Voice).vRate sting = some (.fade 7) := by
  decide +kernel

theorem witness_CutReachesZeroInEighths :
    let w : Voice := { voiceIn .releasing with rate := some .cut }
    w.state = .releasing ∧ w.rate = some .cut ∧ w.vCount = 0 := by
  decide +kernel

/-- A rise and a fall whose next step is due. -/
def rising : State := put (inRun sting) 0 { voiceIn .sounding with vCount := 7 }

def falling : State := put (inRun sting) 0 { voiceIn .releasing with rate := some (.fade 7), target := 0, vCount := 511 }

theorem witness_FadeStepMovesOneCode :
    ((rising.voice 0).state = .sounding ∧ (rising.cueOf (rising.voice 0)).fadeIn = 1 ∧
      (rising.voice 0).level ≠ (rising.voice 0).target ∧ (rising.voice 0).vCount + 1 = 2 ^ (1 + 2) ∧
      (rising.voice 0).vDone = false) ∧
    ((falling.voice 0).state = .releasing ∧ (falling.voice 0).rate = some (.fade 7) ∧
      (falling.voice 0).level ≠ (falling.voice 0).target ∧ (falling.voice 0).vCount + 1 = 2 ^ (7 + 2)) := by
  decide +kernel

theorem witness_DuckStepMovesOneCode :
    ((ducked.voice 0).state.active = true ∧ (ducked.voice 0).dBefore = none ∧ (ducked.voice 0).duck < duckTarget ducked 0 ∧
      (ducked.voice 0).dDir = .rising ∧ 1 ≤ ducked.cfg.attack ∧ (ducked.voice 0).dCount + 1 = 2 ^ (ducked.cfg.attack + 2)) ∧
    ((unducked.voice 0).state.active = true ∧ duckTarget unducked 0 < (unducked.voice 0).duck ∧
      (unducked.voice 0).dDir = .falling ∧ (unducked.voice 0).dCount + 1 = 2 ^ (unducked.cfg.release + 2)) := by
  decide +kernel

theorem witness_DuckTargetIsLargestDepth :
    ducked.ducksLive ∧ (∀ u, (ducked.voice u).atEnd (ducked.cueOf (ducked.voice u)) = false) ∧ duckTarget ducked 0 = 48 := by
  unfold State.ducksLive
  decide +kernel

theorem witness_MixSumsRoundsAndSaturates :
    let p : Playing := { route := .both, level := 255, duck := 0, frame := some (.mono (-32768)), sounding := true }
    (List.replicate 8 p).length ≤ 8 ∧ p.frame.all (fun f => decide (-32768 ≤ f.left ∧ f.left ≤ 32767)) = true ∧ p.level ≤ 255 := by
  decide +kernel

/-- Slot 0 has played its 1000 frames. -/
def ended : State := put (inRun sting) 0 { voiceIn .sounding with playOffset := 1000, fetchOffset := 1000 }

/-- Its announce state. -/
def endedAs (a : Announce) : State := put ended 0 { ended.voice 0 with announce := a }

/-- It is the holding voice of group 4. -/
def endedHolder : State :=
  { ended with groups := ended.groups.set 3 { ended.groups.get 3 with holder := some 7, holdingVoice := some (0, ended.tag 0) } }

/-- It is that, and ANNOUNCED. -/
def announcedHolder : State := put endedHolder 0 { endedHolder.voice 0 with announce := .announced 2 }

/-- Every other slot sounds, and line 1 waits for a voice. -/
def endedCrowd : State :=
  (put (full (inRun sting) (voiceIn .sounding)) 0 (ended.voice 0)).setLine 1
    { Line.reset with request := some { cue := 0, latched := false, age := 3 } }

theorem witness_EndOfDataFreesTheVoice :
    (NoRequests ended ∧ (ended.voice 0).state.plays = true ∧ (ended.voice 0).announce = .localOnly ∧
      (ended.voice 0).pathEnd (ended.cueOf (ended.voice 0)) = some 1000 ∧ (ended.voice 0).playOffset = 1000 ∧
      (∀ i, (ended.groups.get i).holdingVoice ≠ some (0, ended.tag 0))) ∧
    (OnlyRequest endedCrowd 1 { cue := 0, latched := false, age := 3 } ∧ (∀ u, u ≠ 0 → (endedCrowd.voice u).state ≠ .free) ∧
      Admitted { endedCrowd with voices := endedCrowd.voices.set 0 (Voice.freed 3) } 0 sting) :=
  ⟨⟨noRequests_of (by decide +kernel), by decide +kernel⟩, onlyRequest_of (by decide +kernel), by decide +kernel,
    admitted_of (by decide +kernel)⟩

theorem witness_LeavesGroupsAndQueue :
    ((endedAs (.announced 2)).mode = .run ∧ (endedAs (.announced 2)).queue.length < Config.queueSize ∧
      (endedAs (.announced 2)).hasFrame (Frame.isStartOf 24) = false) ∧
    (queued (endedAs .queued) (.start 0 0 24 1 48 2) true).hasFlying (Frame.isStartOf 24) = true ∧
    ((queued (endedAs .queued) (.start 0 0 24 1 48 2) false).hasFlying (Frame.isStartOf 24) = false ∧
      (queued (endedAs .queued) (.start 0 0 24 1 48 2) false).hasWaiting (Frame.isStartOf 24) = true) ∧
    ((endedHolder.groups.get 3).holdingVoice = some (0, endedHolder.tag 0) ∧
      (∀ j, (endedHolder.groups.get j).holdingVoice = some (0, endedHolder.tag 0) → j = 3) ∧
      (endedHolder.cfg.groups.get 3).manual = false ∧ endedHolder.hasFrame (Frame.isReleaseOf 4) = false) ∧
    ((announcedHolder.groups.get 3).holdingVoice = some (0, announcedHolder.tag 0) ∧ announcedHolder.mode = .run ∧
      (∀ j, (announcedHolder.groups.get j).holdingVoice = some (0, announcedHolder.tag 0) → j = 3) ∧
      (announcedHolder.voice 0).announce = .announced 2 ∧ announcedHolder.hasFrame (Frame.isStartOf 24) = false ∧
      (announcedHolder.cfg.groups.get 3).manual = false ∧ announcedHolder.queue = []) := by
  decide +kernel

/-- 11.1: an ANNOUNCED holding voice that ends leaves a RELEASE and an END in the queue, the RELEASE ahead. -/
theorem test_end_and_release :
    (after (.endOfData 0) announcedHolder).queue.map (fun e => e.frame) = [.release 4, .endFrame 24 0] := by
  decide +kernel

theorem isGranted_of {s : State} {w : Fin 8 → Voice} {v : Fin 8}
    (h : (w v).needsChunk (s.cueOf (s.voice v)) = true ∧
      ∀ x, x ≠ v → (w x).needsChunk (s.cueOf (s.voice x)) = true →
        (w v).buffer.length < (w x).buffer.length ∨ (w v).buffer.length = (w x).buffer.length ∧ v < x) : IsGranted s w v :=
  ⟨h.1, h.2⟩

/-- The transfer has a read with a drop mark, then one without, to come. -/
def readingOn : State :=
  { reading with
    link := some
      { oneRead false with
        reads := (oneRead false).reads ++
          [{ address := 2, count := 1, first := 1, drop := true }, { address := 4, count := 1, first := 2, drop := false }] } }

theorem witness_ReadEndLandsOrDropsTheFrames :
    (reading.mode ≠ .loading ∧ reading.link = some (oneRead false) ∧ (oneRead false).abandon = false ∧
      (oneRead false).reads.map (fun r => (r.count, r.drop)) = [(1, false)] ∧
      (reading.voice 0).generation = (oneRead false).generation ∧
      ([1, 2] : List Byte).length = 1 * (oneRead false).format.bytes) ∧
    (oneRead true).reads.map (fun r => r.drop) = [true] ∧
    readingOn.link.map (fun t => t.reads.map fun r => r.drop) = some [false, true, false] ∧
    IsGranted reading
      (fun v => { (after (.readEnd [1, 2]) reading).voice v with fetchOffset := (reading.voice v).fetchOffset }) 0 ∧
    PathFits bed.mode (some 400) :=
  ⟨by decide +kernel, by decide +kernel, by decide +kernel, isGranted_of (by decide +kernel), by decide +kernel,
    by rintro x ⟨⟩; decide +kernel⟩

/-! ## Witnesses: lines -/

/-- Line 0 is INACTIVE with `k` differing samples in a row; line 1 has no accepted level; lines 2 and 3 hold an aging and a latched
request. -/
def sampled (k : Nat) : State :=
  let s := inRun { sting with group := 4 }
  let s := { s with groups := s.groups.map fun g : GroupView => { g with armed := false } }
  let s := s.setLine 0 { Line.reset with accepted := some false, changes := k }
  let s := s.setLine 2 { Line.reset with request := some { cue := 9, latched := false, age := 3 } }
  counting (s.setLine 3 { Line.reset with request := some { cue := 0, latched := true, age := 3 } }) 48 0

theorem witness_BlockBoundarySamplesTheLines :
    ((sampled 4).mode ≠ .loading ∧ 48 ≤ (sampled 4).tmb.samples ∧ (inRun sting).tmb.samples < 48 ∧ (sampled 4).settled ∧
      (sampled 4).cfg.debounce = 5 ∧ ((sampled 4).lineConfig 0).activeHigh = false ∧
      ((sampled 4).line 0).accepted = some false ∧ ((sampled 4).line 0).changes = 4 ∧ ((sampled 4).line 1).accepted = none) ∧
    ((sampled 3).settled ∧ ((sampled 3).line 0).changes + 1 < (sampled 3).cfg.debounce) ∧
    (((sampled 4).line 3).request = some { cue := 0, latched := true, age := 3 } ∧ (sampled 4).armed ((sampled 4).groupOf 0) = false) ∧
    ((loadingAt 48 9).mode = .loading ∧ 48 ≤ (loadingAt 48 9).tmb.samples ∧ (loadingAt 48 9).settled) := by
  unfold State.settled
  decide +kernel

/-- Both pairs are measured: PGM NORMAL and hot, FLOOR TRIPPED. -/
def measured : State :=
  { counting (inRun sting) 48 0 with
    monitoring := true
    pgm := { Pair.reset with peak := 32768, clips := 24 }
    floor := { Pair.reset with prot := .tripped } }

theorem witness_BlockBoundaryJudgesThePairs :
    measured.mode ≠ .loading ∧ 48 ≤ measured.tmb.samples ∧ measured.settled ∧ measured.monitoring = true ∧ measured.cfg.hot ≠ 0 ∧
      measured.cfg.hot ≤ measured.pgm.peak ∧ measured.cfg.overloadK ≤ measured.pgm.clips ∧ measured.pgm.prot = .normal ∧
      measured.floor.prot = .tripped ∧ measured.floor.peak < measured.cfg.hot ∧
      { measured with floor := { Pair.reset with prot := .locked, attempts := 3, clips := 96 } }.settle =
        { measured with floor := { Pair.reset with prot := .locked, attempts := 3, clips := 96 } } := by
  unfold State.settled
  decide +kernel

/-- The line presses a cue of the disarmed group 4 under an early policy. -/
def early (e : EarlyPolicy) : State :=
  let s := station .run { sting with group := 4 } .none { playLine with early := e }
  { s with groups := s.groups.map fun g : GroupView => { g with armed := false } }

theorem witness_PressIsIgnoredOrEarly :
    ((early .latch).mode ≠ .loading ∧ ((early .latch).lineConfig 0).action = .play 0 ∧ ((early .latch).line 0).penalty = none ∧
      ((early .latch).line 0).request = none ∧ (early .latch).armed ((early .latch).groupOf (0 : Byte).toNat) = false ∧
      ((early .latch).lineConfig 0).early = .latch ∧ ((early .penalty).lineConfig 0).early = .penalty ∧
      ((early .discard).lineConfig 0).early = .discard) ∧ (early .penalty).cfg.penaltyTime ≠ 0 ∧ NoRequests (early .latch) := by
  refine ⟨by decide +kernel, by decide +kernel, noRequests_of (by decide +kernel)⟩

/-- R29: a penalty of 25 that begins at the hold-unit boundary that is due is not counted down by it, and one that begins before is. -/
theorem test_penalty_lasts_its_units :
    let count := fun (blocks : Nat) (cs : List Instr) => ((afterAll cs (counting (early .penalty) 0 blocks)).line 0).penalty
    count 10 [.playPress 0, .holdUnitBoundary] = some 25 ∧
      ((after .holdUnitBoundary
        (counting ((early .penalty).setLine 0 { Line.reset with event := some .press }) 0 10)).line 0).penalty = some 25 ∧
      ((counting (after .holdUnitBoundary (after (.playPress 0) (counting (early .penalty) 0 10))) 0 10).line 0).penaltyNew = false ∧
      ((after .holdUnitBoundary (counting (after (.playPress 0) (counting (early .penalty) 0 9)) 0 10)).line 0).penalty = some 24 := by
  decide +kernel

/-- In RUN with a cue that has an emit set. -/
def emitting : State := inRun { sting with emit := 1 }

/-- A RESTART cue of the LAST_WINS group 4 sounds in slot 0, and cue 1 of that group in slot 1. -/
def restarting : State :=
  let q := { sting with group := 4, retrigger := .restart }
  let s := station .run q .lastWins gateLine
  put (put { s with cues := s.cues.set 1 (.present { sting with group := 4 }) } 0 (voiceIn .sounding)) 1
    { voiceIn .sounding with cue := 1 }

theorem witness_PressTakesTheLowestFreeVoice :
    (Presses (inRun sting) 0 0 ∧ Admitted (inRun sting) 0 sting ∧ LowestFree (inRun sting) 0) ∧
    (Presses emitting 0 0 ∧ Admitted emitting 0 { sting with emit := 1 } ∧ emitting.mode = .run ∧ emitting.hasRoom) ∧
    (Presses restarting 0 0 ∧ restarting.record 0 = .present { sting with group := 4, retrigger := .restart } ∧ LowestFree restarting 2 ∧
      restarting.armed 4 = true ∧ restarting.groupMode 4 = .lastWins ∧ restarting.chokeFade 4 ≠ 0 ∧
      (∀ u, (restarting.voice u).state ≠ .free → (restarting.voice u).state = .sounding ∧ (restarting.voice u).level ≠ 0) ∧
      (restarting.voice 0).cue = 0 ∧ (restarting.voice 1).cue = 1 ∧ (restarting.cueOf (restarting.voice 1)).group = 4) :=
  ⟨⟨presses_of (by decide +kernel), admitted_of (by decide +kernel), lowestFree_of (by decide +kernel)⟩,
    ⟨presses_of (by decide +kernel), admitted_of (by decide +kernel), by decide +kernel, by unfold State.hasRoom; decide +kernel⟩,
    presses_of (by decide +kernel), by decide +kernel, lowestFree_of (by decide +kernel), by decide +kernel⟩

/-- In RUN with a cue of the FIRST_WINS group 4. -/
def contest : State := station .run { sting with group := 4 } .firstWins gateLine

theorem witness_FirstWinsPressClaims :
    Presses contest 0 0 ∧ Admitted contest 0 { sting with group := 4 } ∧ contest.groupMode 4 = .firstWins ∧ LowestFree contest 0 ∧
      contest.cfg.number ≤ 30 ∧ contest.lastWinner 4 ≤ 31 ∧ contest.hasRoom :=
  ⟨presses_of (by decide +kernel), admitted_of (by decide +kernel), by decide +kernel, lowestFree_of (by decide +kernel),
    by decide +kernel, by decide +kernel, by unfold State.hasRoom; decide +kernel⟩

/-- Group 4 is held by station 9. -/
def held9 : State := contest.setGroup 3 { GroupView.reset GroupConfig.default with holder := some 9, lastWinner := 9 }

/-- An IGNORE cue is in use. -/
def ignoring : State := put (inRun { sting with retrigger := .ignore }) 0 (voiceIn .priming)

theorem witness_PressIsRefused :
    (Presses { inRun sting with cues := Table.fill 255 .absent } 0 0 ∧
      { inRun sting with cues := Table.fill 255 CueRecord.absent }.record 0 = .absent) ∧
    (Presses held9 0 0 ∧ held9.record 0 = .present { sting with group := 4 } ∧ held9.armed 4 = true ∧
      held9.groupMode 4 = .firstWins ∧ held9.holder 4 ≠ none) ∧
    (Presses ignoring 0 0 ∧ ignoring.record 0 = .present { sting with retrigger := .ignore } ∧
      (ignoring.voice 0).state.occupies = true ∧ (ignoring.voice 0).cue = 0) :=
  ⟨⟨presses_of (by decide +kernel), by decide +kernel⟩, ⟨presses_of (by decide +kernel), by decide +kernel⟩,
    presses_of (by decide +kernel), by decide +kernel⟩

/-- A TOGGLE cue sounds in slot 2. -/
def toggling : State := put (inRun { sting with retrigger := .toggle }) 2 (voiceIn .sounding)

theorem witness_TogglePressReleasesTheCue :
    Presses toggling 0 0 ∧ toggling.record 0 = .present { sting with retrigger := .toggle } ∧ toggling.armed 0 = true ∧
      toggling.groupMode 0 ≠ .firstWins ∧ sting.mode.tailEnd = none ∧ sting.fadeOut = 1 + 1 ∧
      ((toggling.voice 2).state = .sounding ∧ (toggling.voice 2).cue = 0) ∧
      (∀ u, (toggling.voice u).state.occupies = true → (toggling.voice u).cue = 0 →
        (toggling.voice u).state = .sounding ∧ (toggling.voice u).level ≠ 0) :=
  ⟨presses_of (by decide +kernel), by decide +kernel⟩

/-- Every slot sounds a cue of priority 3, and line 1's cue 1 has priority 5; slot 4 is the oldest. -/
def crowded : State :=
  let s := full (inRun sting) { voiceIn .sounding with startSeq := 9, source := .line 2 }
  let s := { s with cues := s.cues.set 1 (.present { sting with priority := 5 }) }
  put s 4 { voiceIn .sounding with startSeq := 65535, source := .line 2 }

theorem witness_PressWithoutAFreeVoiceSteals :
    (Presses crowded 1 1 ∧ Admitted crowded 1 { sting with priority := 5 } ∧ (∀ u, (crowded.voice u).state ≠ .free) ∧
      crowded.cfg.expiry ≠ 0 ∧ crowded.releasing = []) ∧
    (crowded.voice 4).state = .sounding ∧ (crowded.voice 4).level ≠ 0 ∧ IsVictim crowded 5 4 :=
  ⟨⟨presses_of (by decide +kernel), admitted_of (by decide +kernel), by decide +kernel⟩, by decide +kernel, by decide +kernel,
    isVictim_of (by decide +kernel)⟩

/-- Slot 0 holds w. -/
def held0 (w : Voice) : State := put (inRun sting) 0 w

/-- A LOOP_TAIL cue sounds in slot 0, and the link reads for it. -/
def looping : State :=
  { put (inRun bed) 0 { voiceIn .sounding with playOffset := 390, fetchOffset := 401, buffer := List.replicate 11 (.mono 1) } with
    link := some { oneRead false with reads := [{ address := 0, count := 1, first := 401, drop := false }] } }

theorem witness_ReleaseActsOnTheLinesVoices :
    (let s := held0 (voiceIn .sounding)
    s.mode ≠ .loading ∧ (s.lineConfig 0).action = .play 0 ∧ (s.lineConfig 0).gate = true ∧
      (∀ m, m ≠ 0 → (s.line m).request = none) ∧ s.remote = [] ∧ s.passesDue = 0 ∧
      ((s.voice 0).state ≠ .free ∧ (s.voice 0).source = .line 0 ∧ (s.voice 0).cue = (0 : Byte).toNat)) ∧
    (∀ v r, ((held0 { voiceIn .releasing with rate := some (.fade 7) }).voice v).rate = some r → r.legal) ∧
    ((looping.lineConfig 0).gate = true ∧ (looping.voice 0).state = .sounding ∧ (looping.voice 0).tail = none ∧
      looping.link.map (fun y => (y.slot, y.generation)) = some (0, (looping.voice 0).generation)) :=
  ⟨by decide +kernel, fun v => legal_of (by revert v; decide +kernel), by decide +kernel⟩

/-- R10, R22: a tail that begins at loop index 390 crosses to the data behind the loop at offset 400: ten buffered frames stay, and the
read from offset 401 is marked. -/
theorem test_tail_cuts_back :
    let t := after (.playRelease 0) looping
    (t.voice 0).tail = some 400 ∧ (t.voice 0).buffer.length = 10 ∧ (t.voice 0).fetchOffset = 400 ∧
      t.link.map (fun y => y.reads.map fun r => r.drop) = some [true] := by
  decide +kernel

/-- A SEND line of an action on line 0. -/
def sending (a : LineAction) : State := station .run sting .none { gateLine with action := a }

theorem witness_SendLinesQueueTheirFrames :
    (sending (.sendFire 3 1 2)).mode ≠ .loading ∧ (sending (.sendFire 3 1 2)).mode = .run ∧
      (sending (.sendFire 3 1 2)).queue.length < Config.queueSize ∧
      ((sending (.sendFire 3 1 2)).lineConfig 0).action = .sendFire 3 1 2 ∧
      ((sending (.sendFire 3 1 2)).lineConfig 0).gate = true := by
  decide +kernel

/-- The queue holds eight STARTs, or eight RELEASEs. -/
def stuffed (f : Frame) : State :=
  { sending (.sendRelease 4) with
    queue := List.replicate 8 { frame := f, key := 7, attempts := 0, inFlight := false } }

theorem witness_FullQueueEvictsTheLeastUrgent :
    ((stuffed (.start 0 0 8 1 48 255)).mode = .run ∧ QueueLaw (stuffed (.start 0 0 8 1 48 255)).queue ∧
      (stuffed (.start 0 0 8 1 48 255)).queue.length = 8 ∧
      ((stuffed (.start 0 0 8 1 48 255)).lineConfig 0).action = .sendRelease 4) ∧
    ((stuffed (.release 5)).mode = .run ∧ QueueLaw (stuffed (.release 5)).queue ∧ (stuffed (.release 5)).queue.length = 8 ∧
      ∀ e ∈ (stuffed (.release 5)).queue, e.inFlight = false → e.kind ≤ 2) :=
  ⟨⟨by decide +kernel, queueLaw_of (by decide +kernel), by decide +kernel⟩, by decide +kernel, queueLaw_of (by decide +kernel),
    by decide +kernel⟩

/-- Line 0 and the remote queue hold requests of age `a`. -/
def aged (a : Nat) : State :=
  { (inRun sting).setLine 0 { Line.reset with request := some { cue := 0, latched := false, age := a } } with
    remote := [{ cue := 0, source := 3, age := a }] }

/-- Line 0's request is one block short of its expiry, the 48th sample instant of the block is coming, every slot is in use, and a cut of
slot 0 ends at that instant. -/
def tied : State :=
  let s := put (full (inRun sting) (voiceIn .sounding)) 0 { voiceIn .releasing with level := 8, rate := some .cut, target := 0 }
  counting
    { s.setLine 0 { Line.reset with request := some { cue := 0, latched := false, age := 99 } } with releasing := [0] } 47 0

theorem witness_RipeRequestsExpire :
    (((aged 100).line 0).request = some { cue := 0, latched := false, age := 100 } ∧ (aged 100).cfg.expiry ≠ 0 ∧
      (aged 100).cfg.expiry ≤ 100) ∧
    ((aged 99).line 0).request = some { cue := 0, latched := false, age := 99 } ∧ 99 < (aged 99).cfg.expiry ∧
      (aged 100).remote[0]? = some { cue := 0, source := 3, age := 100 } ∧
    ((tied.line 0).request = some { cue := 0, latched := false, age := 99 } ∧ tied.mode ≠ .loading ∧ tied.tmb.samples = 47 ∧
      tied.cfg.expiry ≤ 99 + 1) := by
  decide +kernel

/-- The remote queue holds a ripe entry and one for cue `c` behind it. -/
def agedRemote (s : State) (c : Nat) : State :=
  { s with remote := [{ cue := 0, source := 3, age := 100 }, { cue := c, source := 3, age := 1 }] }

/-- Every slot is in use, and slot 1 is being cut. -/
def cutCrowd : State := { put (full (inRun sting) (voiceIn .sounding)) 1 { voiceIn .releasing with rate := some .cut } with releasing := [1] }

theorem witness_RipeRequestsExpire_pass :
    ((∀ n, ((agedRemote (inRun sting) 9).line n).request = none) ∧ (agedRemote (inRun sting) 9).passesDue = 0 ∧
      (agedRemote (inRun sting) 9).cfg.expiry = 100 ∧ (agedRemote (inRun sting) 9).record 9 = .absent) ∧
    (Admitted (agedRemote (inRun sting) 0) 0 sting ∧ (inRun sting).groupMode sting.group ≠ .firstWins ∧
      LowestFree (agedRemote (inRun sting) 0) 0) ∧
    (Admitted (agedRemote cutCrowd 0) 0 sting ∧ (∀ v, (cutCrowd.voice v).state ≠ .free) ∧ (∀ n, (cutCrowd.line n).request = none) ∧
      cutCrowd.releasing = [1] ∧ (cutCrowd.voice 1).state = .releasing ∧ (cutCrowd.voice 1).rate = some .cut) :=
  ⟨by decide +kernel, ⟨admitted_of (by decide +kernel), by decide +kernel, lowestFree_of (by decide +kernel)⟩,
    admitted_of (by decide +kernel), by decide +kernel⟩

/-- R44: a cut ends at the instant of the boundary at which a request expires. Taken first, the expiry ends the request and the slot stays
FREE; the instant taken first, the request is given the voice. -/
theorem test_expiry_and_a_cut_tie :
    (let t := afterAll [.requestExpiry (.line 0), .sampleInstant, .blockBoundary 255] tied
    (t.voice 0).state = .free ∧ t.outcomes.get 0 = some .expired) ∧
    (let t := afterAll [.sampleInstant, .blockBoundary 255, .requestExpiry (.line 0)] tied
    (t.voice 0).state = .priming ∧ t.outcomes.get 0 = some .played) := by
  decide +kernel

/-- R34: a latched request whose age has reached the expiry time expires though its group is disarmed by then. -/
theorem test_ripe_latched_request_expires :
    let s := (early .latch).setLine 0 { Line.reset with request := some { cue := 0, latched := true, age := 100 } }
    s.armed (s.groupOf 0) = false ∧ ((after (.requestExpiry (.line 0)) s).line 0).request = none := by
  decide +kernel

/-! ## Witnesses: the pairs and the hold unit -/

/-- PGM is at each limit, or one short of it. -/
def limits (p : Pair) : State := { inRun sting with pgm := p }

theorem witness_CountersAtTheirLimitsEnd :
    ((limits { Pair.reset with deadAir := 2000 }).cfg.deadAirTime * 10 ≤ 2000 ∧ 1999 < (limits Pair.reset).cfg.deadAirTime * 10) ∧
    ((limits { Pair.reset with normalTime := 5000 }).pair .pgm).prot = .normal ∧
    (((inRun sting).setLine 0 { Line.reset with penalty := some 0 }).line 0).penalty = some 0 := by
  decide +kernel

theorem witness_TripsAndRecoveries :
    let tripped := limits { Pair.reset with prot := .tripped, wait := 100 }
    (((limits { Pair.reset with run := 16 }).pair .pgm).prot = .normal ∧ 16 ≤ ((limits { Pair.reset with run := 16 }).pair .pgm).run) ∧
    ((tripped.pair .pgm).prot = .tripped ∧ tripped.cfg.recovery = .short ∧ 100 ≤ (tripped.pair .pgm).wait) := by
  decide +kernel

theorem witness_RemainingTimeIsTheSmallerBound :
    let w : Voice := { voiceIn .releasing with rate := some (.fade 7) }
    w.pathEnd sting = some 1000 ∧ w.state = .releasing ∧ w.rate = some (.fade 7) ∧ w.pathEnd bed = none := by
  decide +kernel

/-- Slot 0 is ANNOUNCED with a hold of 2 and has 1000 frames to play. -/
def holding : State := counting (put (inRun sting) 0 { voiceIn .sounding with announce := .announced 2 }) 0 10

theorem witness_HoldUnitBoundaryCountsDown :
    ((loadingAt 0 10).mode = .loading ∧ 10 ≤ (loadingAt 0 10).tmb.blocks ∧ (loadingAt 0 10).settled) ∧
    holding.mode ≠ .loading ∧ 10 ≤ holding.tmb.blocks ∧ (inRun sting).tmb.blocks < 10 ∧ holding.settled ∧
      (holding.voice 0).announce = .announced 2 ∧ holding.mode = .run ∧
      (holding.voice 0).remainingTime (holding.cueOf (holding.voice 0)) = some 3 ∧
      holding.hasFrame (Frame.isHoldOf (holding.tag 0)) = false ∧ (∀ u, (holding.voice u).announce ≠ .localOnly → u = 0) ∧
      holding.queue.length < Config.queueSize ∧ Ranged holding := by
  refine ⟨by unfold State.settled; decide +kernel, by decide +kernel, by decide +kernel, by decide +kernel,
    by unfold State.settled; decide +kernel, by decide +kernel, by decide +kernel, by decide +kernel, by decide +kernel,
    by decide +kernel, by decide +kernel, ranged_of (by decide +kernel)⟩

/-! ## Witnesses: the bus -/

/-- A station in JOINING whose join STATUS has not been offered. -/
def joining : State := { station .joining sting .none playLine with join := .notOffered }

/-- A FIRE has met its second bit error before this one, and seven ASKs wait behind it. -/
def flagging : State :=
  after .bitError
    { sending (.sendRelease 4) with
      queue := { frame := .fire 3 1, key := 7, attempts := 2, inFlight := true } ::
        List.replicate 7 { frame := .ask 3, key := 7, attempts := 0, inFlight := false } }

theorem witness_ReceiverReadsTheBus :
    (joining.mode = .joining ∧ (∀ e ∈ joining.queue, e.inFlight = true → 3 ≤ e.attempts) ∧ joining.join = .notOffered ∧
      NoStatus joining.queue ∧ joining.hasRoom ∧ joining.rx = .idle) ∧
    ((∀ e ∈ flagging.queue, e.inFlight = true → 3 ≤ e.attempts) ∧ flagging.queue.length = 8) ∧
    ((listening (inRun sting)).mode ≠ .loading ∧ (listening (inRun sting)).queue = [] ∧ (listening (inRun sting)).rx = .receiving ∧
      receive (List.replicate 9 true) = .discarded false ∧ receive (withSync 0 ask5.contentBits ++ [true, false]) = .discarded true ∧
      receive [] = .unfinished) := by
  refine ⟨⟨by decide +kernel, by decide +kernel, by decide +kernel, ?_, by unfold State.hasRoom; decide +kernel, by decide +kernel⟩,
    by decide +kernel, by decide +kernel⟩
  intro e h
  cases h

/-- R140: a frame dropped at its third bit error keeps its place until the error flag is over: a RELEASE offered to the full queue
evicts an ASK, and the dropped frame has left at idle. It is not begun again. -/
theorem test_dropped_frame_keeps_its_place :
    let s := after (.sendPress 0) flagging
    (s.queue.map (fun e => e.frame.kind), s.flag .txqDrop) = ([2, 7, 10, 10, 10, 10, 10, 10], true) ∧
      ((after .busIdle s).queue.map fun e => e.frame.kind) = [2, 10, 10, 10, 10, 10, 10] ∧
      after .frameBegin flagging = flagging := by
  decide +kernel

/-- R134, R136: a frame whose check is good is answered though its end bit is read dominant; one with a wrong check is not. -/
theorem test_discards_and_the_echo :
    let s := listening (inRun sting)
    (after (.rxDiscard (withSync 0 ask5.contentBits ++ [true, false])) s).echoed = true ∧
      (after (.rxDiscard (withSync 0 (ask5.headBits ++ List.replicate 16 true) ++ [true, true])) { s with echoed := true }).echoed =
        false ∧
      (after (.rxDiscard (withSync 0 ask5.contentBits ++ [true, false])) s).received = 0 := by
  decide +kernel

theorem witness_FrameBeginsAtIdle :
    let waiting := queued (inRun sting) (.status 0 0 0 0 0 0) false
    ((∀ e ∈ waiting.queue, e.inFlight = false) ∧ waiting.rx = .idle ∧ waiting.mode = .run ∧ waiting.queue.length = 1) ∧ Lawful waiting ∧
      (∀ e ∈ (queued (inRun sting) (.fire 3 1) false).queue, e.inFlight = false) :=
  ⟨by decide +kernel, lawful_of (queueLaw_of (by decide +kernel)) (by decide +kernel), by decide +kernel⟩

/-- Slot 0 is CLAIMING for group 4 with its CLAIM in flight or waiting; `stop` is its stop mark. -/
def claiming (flying stop : Bool) : State :=
  queued (put contest 0 { voiceIn .claiming with claimed := .openClaim, stopMark := stop }) (.claim 4 0) flying

/-- R139: the error flag is eight dominant bit times, after which the wire is released. -/
theorem test_error_flag_level :
    let tx := (after .bitError (queued (inRun sting) (.fire 3 1) true)).tx
    tx.level 0 = false ∧ tx.level 7 = false ∧ tx.level 8 = true := by
  decide +kernel

theorem witness_FlightsReturnOrAreDropped :
    ((claiming true true).queue = [] ++ { frame := .claim 4 0, key := 7, attempts := 0, inFlight := true } :: [] ∧
      OnlyClaimant (claiming true true) 4 0 ∧ NoRequests (claiming true true) ∧ ((claiming true true).voice 0).stopMark = true) ∧
    ((queued (inRun sting) (.fire 3 1) true).queue = [] ++ { frame := .fire 3 1, key := 7, attempts := 0, inFlight := true } :: [] ∧
      { queued (inRun sting) (.fire 3 1) true with
        queue := [{ frame := .fire 3 1, key := 7, attempts := 2, inFlight := true }] }.flying =
          some { frame := .fire 3 1, key := 7, attempts := 2, inFlight := true }) :=
  ⟨⟨by decide +kernel, onlyClaimant_of (by decide +kernel), noRequests_of (by decide +kernel), by decide +kernel⟩, by decide +kernel⟩

theorem witness_OwnClaimNamesTheHolder :
    let s := claiming true false
    s.flying = some { frame := .claim 4 0, key := 7, attempts := 0, inFlight := true } ∧ NamesGroup 4 3 ∧ OnlyClaimant s 4 0 ∧
      NoRequests s ∧ Lawful s ∧ Ranged s ∧ (s.voice 0).stopMark = false ∧ (s.line 0).owedRelease = false :=
  ⟨by decide +kernel, rfl, onlyClaimant_of (by decide +kernel), noRequests_of (by decide +kernel),
      lawful_of (queueLaw_of (by decide +kernel)) (by decide +kernel),
    ranged_of (by decide +kernel), by decide +kernel⟩

/-- Group 4 is held by this station, whose voice in slot 1 is the holding voice. -/
def holder : State :=
  (put contest 1 { voiceIn .sounding with claimed := .played }).setGroup 3
    { GroupView.reset GroupConfig.default with holder := some 7, lastWinner := 7, holdingVoice := some (1, 25) }

theorem witness_AnothersClaimNamesItOrIsAnswered :
    (Hears (listening (claiming false false)) 3 ∧ WireLaw (listening (claiming false false)) ∧ NamesGroup 4 3 ∧
      ((claiming false false).cfg.groups.get 3).mode = .firstWins ∧
      ((claiming false false).groups.get 3).holder = none ∧ OnlyClaimant (claiming false false) 4 0 ∧
      (claiming false false).hasWaiting (Frame.isClaimOf 4) = true ∧ NoRequests (claiming false false)) ∧
    (Hears (listening holder) 3 ∧ WireLaw (listening holder) ∧ (holder.groups.get 3).holder = some holder.cfg.number ∧ holder.mode = .run ∧
      holder.hasFrame (Frame.isHeldOf 4) = false ∧ holder.queue.length < Config.queueSize) ∧
    (Hears (listening held9) 3 ∧ WireLaw (listening held9) ∧ (held9.groups.get 3).holder = some 9 ∧ 9 ≠ held9.cfg.number) :=
  ⟨⟨hears_of (by decide +kernel), wireLaw_of (by decide +kernel), rfl, by decide +kernel, by decide +kernel,
      onlyClaimant_of (by decide +kernel), by decide +kernel, noRequests_of (by decide +kernel)⟩,
    ⟨hears_of (by decide +kernel), wireLaw_of (by decide +kernel), by decide +kernel⟩, hears_of (by decide +kernel),
    wireLaw_of (by decide +kernel), by decide +kernel⟩

theorem witness_HeldNamesItsSenderHolder :
    (NamesGroup 4 3 ∧ (holder.cfg.groups.get 3).mode = .firstWins ∧ Hears (listening holder) 3 ∧ WireLaw (listening holder) ∧
      NoRequests holder ∧
      (holder.groups.get 3).holder = some holder.cfg.number ∧ (holder.groups.get 3).holdingVoice = some (1, holder.tag 1) ∧
      (holder.voice 1).state ≠ .free) ∧
    (queued holder (.held 4) true).flying = some { frame := .held 4, key := 7, attempts := 0, inFlight := true } :=
  ⟨⟨rfl, by decide +kernel, hears_of (by decide +kernel), wireLaw_of (by decide +kernel), noRequests_of (by decide +kernel),
    by decide +kernel⟩, by decide +kernel⟩

/-- Another station's frame comes while cue 1, of no group, waits on line 1. -/
def awaited (s : State) : State :=
  (listening { s with cues := s.cues.set 1 (.present sting) }).setLine 1
    { Line.reset with request := some { cue := 1, latched := false, age := 3 } }

theorem witness_ReleaseFreesTheGroup :
    (Completes (listening holder) (.other 3) (.release 4) (listening holder).counted ∧ WireLaw (listening holder) ∧
      NoRequests (listening holder)) ∧
    (Completes (queued holder (.release 4) true) (.own true) (.release 4) ((queued holder (.release 4) true).sent true) ∧
      WireLaw (queued holder (.release 4) true) ∧ NamesGroup 4 3 ∧ (holder.cfg.groups.get 3).mode = .firstWins) ∧
    (Completes (awaited holder) (.other 3) (.release 4) (awaited holder).counted ∧ WireLaw (awaited holder) ∧
      ((awaited holder).groups.get 3).holder ≠ none ∧
      OnlyRequest (awaited holder) 1 { cue := 1, latched := false, age := 3 } ∧
      Admitted ((awaited holder).counted.setGroup 3 (GroupView.reset GroupConfig.default)) 1 sting ∧ LowestFree (awaited holder) 0 ∧
      (awaited holder).groupMode sting.group ≠ .firstWins) :=
  ⟨⟨⟨hears_of (by decide +kernel), rfl⟩, wireLaw_of (by decide +kernel), noRequests_of (by decide +kernel)⟩,
    ⟨⟨⟨_, rfl, rfl⟩, rfl⟩, wireLaw_of (by decide +kernel), rfl, by decide +kernel⟩,
    ⟨hears_of (by decide +kernel), rfl⟩, wireLaw_of (by decide +kernel), by decide +kernel, onlyRequest_of (by decide +kernel),
      admitted_of (by decide +kernel),
    lowestFree_of (by decide +kernel), by decide +kernel⟩

/-- Lines 1 and 6 wait for cues 1 and 0, slot 0 is FREE, slot 1 is being cut, and group 5 is disarmed; the pointer is at 4. -/
def contended (rotating : Bool) : State :=
  let s := put (put (full (inRun sting) (voiceIn .sounding)) 0 (Voice.freed 3)) 1 { voiceIn .releasing with rate := some .cut }
  let s := (awaited s).setLine 6 { Line.reset with request := some { cue := 0, latched := false, age := 3 } }
  { s.setGroup 4 { GroupView.reset GroupConfig.default with armed := false } with
    pointer := 4
    releasing := [1]
    cfg := { s.cfg with rotating := rotating } }

theorem witness_ArmAndDisarmSetTheNamedGroups :
    let s := listening contest
    let c := listening (claiming false false)
    (NoRequests s ∧ Completes s (.other 3) (.arm 0x10) s.counted ∧
      Completes s (.other 3) (.disarm 0x10) s.counted ∧ WireLaw s ∧ (∀ v, (s.voice v).state ≠ .claiming)) ∧
    (Completes c (.other 3) (.disarm 0x10) c.counted ∧ WireLaw c ∧ (0x10 : GroupSet).getLsbD (3 + 1) = true ∧
      (c.groups.get 3).armed = true ∧
      OnlyClaimant c 4 0 ∧ c.counted.hasWaiting (Frame.isClaimOf 4) = true) ∧
    (Completes (contended true) (.other 3) (.arm 0x20) (contended true).counted ∧
      ((contended true).groups.get 4).armed = false ∧ (0x20 : GroupSet).getLsbD (4 + 1) = true ∧
      (6 + 9 - (contended true).pointer.val) % 9 < (1 + 9 - (contended true).pointer.val) % 9 ∧
      Admitted (contended true).counted 0 sting ∧ Admitted (contended true).counted 1 sting ∧
      ((contended true).voice 0).state = .free ∧ (∀ u, u ≠ 0 → ((contended true).voice u).state ≠ .free) ∧
      ((contended true).voice 1).rate = some .cut ∧ (contended true).cfg.expiry ≠ 0) :=
  ⟨⟨noRequests_of (by decide +kernel), ⟨hears_of (by decide +kernel), rfl⟩, ⟨hears_of (by decide +kernel), rfl⟩,
      wireLaw_of (by decide +kernel), by decide +kernel⟩,
    ⟨⟨hears_of (by decide +kernel), rfl⟩, wireLaw_of (by decide +kernel), by decide +kernel, by decide +kernel,
      onlyClaimant_of (by decide +kernel),
      by decide +kernel⟩,
    ⟨hears_of (by decide +kernel), rfl⟩, by decide +kernel, by decide +kernel, by decide +kernel, admitted_of (by decide +kernel),
    admitted_of (by decide +kernel), by decide +kernel⟩

/-- R36: an ARM that arms a group runs a pass; the one FREE voice goes to line 1 under FIXED, to line 6 under ROTATING from place 4. -/
theorem test_serving_order :
    ((after (.arm (.other 3) 0x20) (contended false)).voice 0).source = .line 1 ∧
      ((after (.arm (.other 3) 0x20) (contended true)).voice 0).source = .line 6 := by
  decide +kernel

/-- Slot 0 is in an announce state with generation 3, so that its tag is 24, and a frame of tag 24 is in flight. -/
def announcing (a : Announce) (f : Frame) : State := queued (put (inRun sting) 0 { voiceIn .sounding with announce := a }) f true

theorem witness_OwnStartEndAndHoldComplete :
    (∃ e, (announcing .queued (.start 0 0 24 1 48 2)).flying = some e ∧ e.frame = .start 0 0 24 1 48 2) ∧
    ((announcing .queued (.start 0 0 24 1 48 2)).tag 0 = (24 : Byte).toNat ∧
      ((announcing .queued (.start 0 0 24 1 48 2)).voice 0).announce = .queued) ∧
    (∃ e, (announcing (.announced 1) (.hold 24 9)).flying = some e ∧ e.frame = .hold 24 9) ∧
    (∃ e, (announcing .localOnly (.endFrame 24 0)).flying = some e ∧ e.frame = .endFrame 24 0) ∧
    ({ queued (inRun sting) (.start 0 0 24 1 48 2) true with owedEnd := some { tag := 24, group := 0 } }.tag 0 ≠ 24) :=
  ⟨⟨_, rfl, rfl⟩, by decide +kernel, ⟨_, rfl, rfl⟩, ⟨_, rfl, rfl⟩, by decide +kernel⟩

theorem witness_OwnStatusClearsWhatItCarried :
    let s := queued joining (.status 0x80 0 0 0x04 0 0) true
    (∃ e, s.flying = some e ∧ e.frame = .status 0x80 0 0 0x04 0 0) ∧ carries 0 0x04 .expired = true ∧
      (s.sent true).newMark .expired = false :=
  ⟨⟨_, rfl, rfl⟩, by decide +kernel⟩

/-! ## Witnesses: frames of other stations -/

/-- The duck list holds `n` entries of station 3, of depths 10, 11 and so on. -/
def ducksOf (n : Nat) : State :=
  { inRun sting with
    ducks := (List.range n).map fun i => { source := 3, tag := i, classes := 1, depth := 10 + i, remaining := 5 } }

theorem witness_StartMeetsTheDuckList :
    (Hears (listening (ducksOf 16)) 3 ∧ (ducksOf 16).ducksLive ∧ DuckLaw (ducksOf 16).ducks ∧ (ducksOf 16).ducks.length = 16) ∧
    (Hears (listening (ducksOf 15)) 3 ∧ (ducksOf 15).ducksLive ∧ DuckLaw (ducksOf 15).ducks ∧ (ducksOf 15).ducks.length < 16) := by
  refine ⟨⟨hears_of (by decide +kernel), ?_, duckLaw_of (by decide +kernel), by decide +kernel⟩, hears_of (by decide +kernel), ?_,
    duckLaw_of (by decide +kernel), by decide +kernel⟩ <;>
  · unfold State.ducksLive
    decide +kernel

/-- Slot 0 is ANNOUNCED and sounds a cue of the LAST_WINS group 4. -/
def choked : State :=
  put (station .run { sting with group := 4 } .lastWins playLine) 0 { voiceIn .sounding with announce := .announced 2 }

theorem witness_StartChokesTheGroup :
    Hears (listening choked) 3 ∧ NoRequests choked ∧ NamesGroup 4 3 ∧ (choked.cfg.groups.get 3).mode = .lastWins ∧
      (choked.voice 0).state = .sounding ∧ (choked.cueOf (choked.voice 0)).group = 4 ∧
      (choked.voice 0).announce = .announced 2 :=
  ⟨hears_of (by decide +kernel), noRequests_of (by decide +kernel), rfl, by decide +kernel⟩

theorem witness_EndRemovesItsDuckEntry :
    Hears (listening (ducksOf 2)) 3 ∧ (ducksOf 2).ducksLive ∧ DuckLaw (ducksOf 2).ducks :=
  ⟨hears_of (by decide +kernel), by unfold State.ducksLive; decide +kernel, duckLaw_of (by decide +kernel)⟩

theorem witness_HoldSetsItsDuckEntry : Hears (listening (ducksOf 2)) 3 ∧ (ducksOf 2).ducksLive :=
  ⟨hears_of (by decide +kernel), by unfold State.ducksLive; decide +kernel⟩

theorem witness_StopEndsTheCue :
    (Completes (listening sounding) (.other 3) (.stop 7 0 2) (listening sounding).counted ∧ WireLaw (listening sounding) ∧
      sounding.isTarget 7 ∧ (0 : Byte).toNat ≠ 255 ∧
      NoRequests sounding ∧ (sounding.voice 0).state ≠ .free ∧ (sounding.voice 0).cue = (0 : Byte).toNat) ∧
    (Completes (queued sounding (.stop 9 254 2) true) (.own true) (.stop 9 254 2) ((queued sounding (.stop 9 254 2) true).sent true) ∧
      WireLaw (queued sounding (.stop 9 254 2) true) ∧ ¬(queued sounding (.stop 9 254 2) true).isTarget 9) := by
  refine ⟨⟨⟨hears_of (by decide +kernel), rfl⟩, wireLaw_of (by decide +kernel), by unfold State.isTarget; decide +kernel, by decide +kernel,
    noRequests_of (by decide +kernel), by decide +kernel⟩, ⟨⟨_, rfl, rfl⟩, rfl⟩, wireLaw_of (by decide +kernel),
    by unfold State.isTarget; decide +kernel⟩

/-- The same station receives another's frame, and PGM's overload run has come to its limit. -/
def stopping : State := { listening holder with pgm := { Pair.reset with run := 16 } }

/-- R124, R129: a trip that is due comes before the all-stop clears the run. -/
theorem test_trip_before_the_all_stop :
    let t := stopping.takeTrips.allStopOutput
    (t.flag .trip, t.pgm.prot, t.pgm.run) = (true, .normal, 0) := by
  decide +kernel

theorem witness_AllStopEndsEverything :
    Completes stopping (.other 3) (.stop 0 255 0) stopping.counted ∧ WireLaw stopping ∧ stopping.isTarget 0 ∧ NoRequests stopping ∧
    stopping.mode = .run ∧
      (stopping.groups.get 3).holder = some stopping.cfg.number ∧ (stopping.cfg.groups.get 3).mode = .firstWins ∧
      (∀ v, (stopping.voice v).announce = .localOnly) ∧ stopping.counted.queue = [] ∧
      ((stopping.pair .pgm).prot = .normal ∧ 16 ≤ (stopping.pair .pgm).run) ∧ ¬stopping.isTarget 9 :=
  ⟨⟨hears_of (by decide +kernel), rfl⟩, wireLaw_of (by decide +kernel), by unfold State.isTarget; decide +kernel,
      noRequests_of (by decide +kernel),
    by decide +kernel, by decide +kernel, by decide +kernel, by decide +kernel, by decide +kernel, by decide +kernel,
    by unfold State.isTarget; decide +kernel⟩

/-- The remote queue is full. -/
def busy : State := { inRun sting with remote := List.replicate 4 { cue := 1, source := 9, age := 0 } }

theorem witness_FireMakesARemoteRequest :
    (Completes (listening (inRun sting)) (.other 3) (.fire 7 0) (listening (inRun sting)).counted ∧ (inRun sting).isTarget 7 ∧
      NoRequests (inRun sting) ∧
      Admitted (inRun sting) 0 sting ∧ LowestFree (inRun sting) 0) ∧
    (Completes (listening busy) (.other 3) (.fire 7 0) (listening busy).counted ∧ busy.isTarget 7 ∧ 4 ≤ busy.remote.length) := by
  refine ⟨⟨⟨hears_of (by decide +kernel), rfl⟩, by unfold State.isTarget; decide +kernel, noRequests_of (by decide +kernel),
    admitted_of (by decide +kernel), lowestFree_of (by decide +kernel)⟩, ⟨hears_of (by decide +kernel), rfl⟩,
    by unfold State.isTarget; decide +kernel, by decide +kernel⟩

theorem witness_AskIsAnsweredOthersAreCounted :
    ((listening (inRun sting)).rx = .receiving ∧ (inRun sting).flying = none ∧ Hears (listening (inRun sting)) 3 ∧
      (inRun sting).isTarget 0 ∧ NoStatus (inRun sting).queue ∧ (inRun sting).hasRoom) ∧
    ((3 : BitVec 5).toNat ≠ (inRun sting).cfg.number ∧ 11 < (12 : BitVec 5).toNat ∧ (31 : BitVec 5).toNat = 31) := by
  refine ⟨⟨by decide +kernel, by decide +kernel, hears_of (by decide +kernel), by unfold State.isTarget; decide +kernel, ?_,
    by unfold State.hasRoom; decide +kernel⟩, by decide +kernel⟩
  intro e h
  cases h

theorem witness_OwnNumberHeardRetiresTheStation :
    ((inRun sting).mode = .run ∧ (listening (inRun sting)).flying = none ∧ 1 ≤ (inRun sting).cfg.number ∧ (inRun sting).cfg.number ≤ 30 ∧
      (true = (0x80 : Byte).getLsbD 7) ∧ NoStatus (inRun sting).queue ∧ (inRun sting).hasRoom) ∧
    (joining.mode = .joining ∧ joining.flying = none ∧ joining.cfg.number = 7 ∧ (∀ v, (joining.voice v).state ≠ .claiming)) := by
  refine ⟨⟨by decide +kernel, by decide +kernel, by decide +kernel, by decide +kernel, by decide +kernel, ?_,
    by unfold State.hasRoom; decide +kernel⟩, by decide +kernel⟩
  intro e h
  cases h

theorem witness_SentFrameIsReadBack :
    ask5.payload.length ≤ 6 ∧ (0 : BitVec 16) ≠ checkValue ask5.headBits ∧ 9 * 0 + 8 < (withSync 0 ask5.contentBits).length ∧
      (List.replicate 15 true).length = 15 := by
  decide +kernel

end Sys2Proof.Tests
end

section
/-! PROOF. The ranges of `Ranged` through every operation on voices, every serving pass and every effect of a line, a group, a STOP
and the all-stop (R5, R48 to R50, R72, R143, R162). `Stable` lets the voices and the group views change at will, so that it says nothing
of a generation, a start sequence, a release rate or a last winner: these need what each operation makes of a voice and of a view. -/

namespace Sys2Proof.Machine

-- As in the tests: many short theorems elaborated at once ask for more threads than the check's memory limit has room for.
set_option Elab.async false

/-! ## One voice in range -/

/-- The ranges of R48 to R50 on one voice record: its generation, its start sequence and its release rate. -/
structure Voice.InRange (w : Voice) : Prop where
  generation : w.generation < 32
  startSeq : w.startSeq < 65536
  rate : ∀ r, w.rate = some r → r.legal

/-- A change of a voice that leaves its generation, start sequence and release rate leaves it in range. -/
theorem Voice.InRange.congr {w u : Voice} (h : w.InRange) (generation : u.generation = w.generation := by rfl)
    (startSeq : u.startSeq = w.startSeq := by rfl) (rate : u.rate = w.rate := by rfl) : u.InRange :=
  ⟨generation ▸ h.generation, startSeq ▸ h.startSeq, rate ▸ h.rate⟩

theorem Voice.freed_inRange {g : Nat} (h : g < 32) : (Voice.freed g).InRange := ⟨h, by simp [Voice.freed], nofun⟩

theorem takenVoice_inRange (g c : Nat) {n : Nat} (src : Source) (b : Bool) (h : n < 65536) : (takenVoice g n c src b).InRange :=
  ⟨Nat.mod_lt _ (by omega), h, nofun⟩

theorem Voice.InRange.runDown {w : Voice} (h : w.InRange) {r : Rate} (hr : r.legal) : (w.runDown r).InRange :=
  ⟨h.generation, h.startSeq, by rintro _ ⟨⟩; exact hr⟩

theorem Voice.InRange.runTail {w : Voice} (h : w.InRange) : w.runTail.InRange :=
  ⟨h.generation, h.startSeq, by rintro _ ⟨⟩; trivial⟩

variable {s t : State}

/-! ## Single updates -/

theorem Ranged.voice (h : Ranged s) (v : Fin 8) : (s.voice v).InRange := ⟨h.generations v, h.sequences.2 v, h.rates v⟩

/-- A change of the station that touches none of the state that `Ranged` speaks of keeps it. -/
theorem Ranged.congr (h : Ranged s) (cfg : t.cfg = s.cfg := by rfl) (cues : t.cues = s.cues := by rfl)
    (voices : t.voices = s.voices := by rfl) (startCounter : t.startCounter = s.startCounter := by rfl)
    (groups : t.groups = s.groups := by rfl) (received : t.received = s.received := by rfl)
    (tmb : t.tmb = s.tmb := by rfl) : Ranged t where
  number := cfg ▸ h.number
  generations := by unfold State.voice; exact voices ▸ h.generations
  sequences := by unfold State.voice; exact startCounter ▸ voices ▸ h.sequences
  rates := by unfold State.voice; exact voices ▸ h.rates
  winners := groups ▸ h.winners
  received := received ▸ h.received
  fades := cues ▸ h.fades
  chokes := cfg ▸ h.chokes
  timebase := tmb ▸ h.timebase

theorem Ranged.withVoices (h : Ranged s) {vs : Table 8 Voice} (hv : ∀ v, (vs.get v).InRange) : Ranged { s with voices := vs } :=
  { h with
    generations := fun v => (hv v).generation
    sequences := ⟨h.sequences.1, fun v => (hv v).startSeq⟩
    rates := fun v => (hv v).rate }

theorem Ranged.setVoice (h : Ranged s) (v : Fin 8) {w : Voice} (hw : w.InRange) : Ranged (s.setVoice v w) :=
  h.withVoices fun u => by
    rw [Table.get_set]
    split
    · exact hw
    · exact h.voice u

theorem Ranged.withGroups (h : Ranged s) {gs : Table 15 GroupView} (hg : ∀ i, (gs.get i).lastWinner ≤ 30) :
    Ranged { s with groups := gs } :=
  { h with winners := hg }

theorem Ranged.setGroup (h : Ranged s) (i : Fin 15) {g : GroupView} (hg : g.lastWinner ≤ 30) : Ranged (s.setGroup i g) :=
  h.withGroups fun j => by
    rw [Table.get_set]
    split
    · exact hg
    · exact h.winners j

theorem Ranged.latchIf (h : Ranged s) (c : Bool) (f : Flag) : Ranged (s.latchIf c f) := by
  unfold State.latchIf
  split
  · exact h.congr
  · exact h

theorem Ranged.recordOutcome (h : Ranged s) (src : Source) (o : RequestOutcome) : Ranged (s.recordOutcome src o) := by
  unfold State.recordOutcome
  split
  · exact h.congr
  · exact h

theorem Ranged.recordPlayed (h : Ranged s) (src : Source) : Ranged (s.recordPlayed src) := by
  unfold State.recordPlayed
  split
  · exact h.congr
  · exact h

theorem Ranged.owes (h : Ranged s) (n : Nat) : Ranged { s with passesDue := n } := h.congr

/-! ## Rates that the settings give (R5, R56, R162) -/

/-- The fade indices of the cue that a voice plays are in range: those of its PRESENT record, or 0. -/
theorem Ranged.cueOf (h : Ranged s) (w : Voice) : (s.cueOf w).fadeIn ≤ 7 ∧ (s.cueOf w).fadeOut ≤ 7 := by
  unfold State.cueOf State.present? State.record
  split
  next q hq =>
    split at hq
    · exact h.fades _ q hq
    · cases hq
  all_goals decide

theorem Ranged.lineRelease (h : Ranged s) (w : Voice) : (s.cueOf w).lineRelease.legal := by
  have hk := (h.cueOf w).2
  unfold Cue.lineRelease
  split
  · trivial
  · exact hk
  · exact hk

theorem Ranged.chokeFade (h : Ranged s) (g : Nat) : s.chokeFade g ≤ 7 := by
  unfold State.chokeFade
  split
  · exact h.chokes _
  · omega

/-! ## FCH -/

theorem Ranged.grant (h : Ranged s) (v : Fin 8) : Ranged (s.grant v) :=
  Ranged.congr (h.setVoice v (w := { s.voice v with fetchOffset := (s.voice v).fetchOffset + chunkSize (s.voice v) (s.cueOf (s.voice v)) })
    (h.voice v).congr)

theorem Ranged.arbitrate (h : Ranged s) : Ranged s.arbitrate := by
  unfold State.arbitrate
  split
  · exact h
  · split
    · exact h.grant _
    · exact h

theorem Ranged.testPrimed (h : Ranged s) (v : Fin 8) : Ranged (s.testPrimed v) := by
  unfold State.testPrimed
  dsimp only
  split
  · exact h.setVoice v (h.voice v).congr
  · exact h

theorem Ranged.cutTransfer (h : Ranged s) (v : Fin 8) (x : Nat) : Ranged (s.cutTransfer v x) := by
  unfold State.cutTransfer
  split
  · split
    · exact h.congr
    · exact h
  · exact h

theorem Ranged.beginTail (h : Ranged s) (v : Fin 8) : Ranged (s.beginTail v) := by
  unfold State.beginTail
  dsimp only
  split
  · exact (((h.setVoice v (h.voice v).congr).cutTransfer v _).testPrimed v).arbitrate
  · exact h

theorem Ranged.land (h : Ranged s) (v : Fin 8) (r : Read) (frames : List SampleFrame) : Ranged (s.land v r frames) :=
  (h.setVoice v (h.voice v).congr).testPrimed v

/-! ## The transmit queue -/

theorem Ranged.loseStart (h : Ranged s) (tag : Nat) : Ranged (s.loseStart tag) := by
  unfold State.loseStart
  dsimp only
  split
  · exact h.setVoice _ (h.voice _).congr
  · exact h

theorem Ranged.evicted (h : Ranged s) (f : Frame) : Ranged (s.evicted f) := by
  cases f
  case start => exact h.loseStart _
  all_goals exact h

theorem Ranged.place (h : Ranged s) (f : Frame) (key : Nat) : Ranged (s.place f key).1 := by
  rcases place_cases (s := s) f key with ⟨_, e⟩ | ⟨_, x, _, e⟩ | ⟨_, _, e⟩ <;> rw [e]
  · exact h.congr
  · exact Ranged.evicted h.congr x.frame
  · exact h.congr

theorem Ranged.takeOut (h : Ranged s) (p : Frame → Bool) : Ranged (s.takeOut p) := h.congr

theorem Ranged.offerKey (h : Ranged s) (f : Frame) (key : Nat) : Ranged (s.offerKey f key).1 := by
  unfold State.offerKey
  split
  case h_1 => split; exacts [h.congr, h.place _ _]
  case h_2 => split; exacts [h, (h.takeOut _).place _ _]
  case h_3 => split; exacts [h.congr, h.place _ _]
  case h_4 => split; exacts [h, h.place _ _]
  all_goals exact h.place _ _

theorem Ranged.offer (h : Ranged s) (f : Frame) : Ranged (s.offer f) := h.offerKey f _

theorem Ranged.offerStatus (h : Ranged s) : Ranged s.offerStatus := h.offer _

theorem Ranged.queueRelease (h : Ranged s) (g : Nat) : Ranged (s.queueRelease g) := by
  unfold State.queueRelease
  split
  · exact h.offer _
  · exact h

theorem Ranged.queueHeld (h : Ranged s) (g : Nat) : Ranged (s.queueHeld g) := by
  unfold State.queueHeld
  split
  · exact h.offer _
  · exact h

/-! ## Announcing and freeing -/

theorem Ranged.decideAnnounce (h : Ranged s) (v : Fin 8) : Ranged (s.decideAnnounce v) := by
  unfold State.decideAnnounce
  dsimp only
  split
  · have ho := (h.setVoice v (w := { s.voice v with announce := .queued }) (h.voice v).congr).offerKey
      (startFrame (s.cueOf (s.voice v)) (s.voice v).cue (s.tag v)) s.cfg.number
    split <;> rename_i he <;> rw [he] at ho
    · exact ho.loseStart _
    all_goals exact ho
  · exact h

theorem Ranged.settleAnnounce (h : Ranged s) (a : Announce) (tag group : Nat) : Ranged (s.settleAnnounce a tag group) := by
  unfold State.settleAnnounce
  split
  · exact h
  · split
    · exact h
    · split
      · exact h.congr
      · exact h.offer _
  · split
    · exact h.congr
    · split
      · exact h.offer _
      · exact h

theorem Ranged.dropHolding (h : Ranged s) (v : Fin 8) (tag : Nat) (i : Fin 15) : Ranged (s.dropHolding v tag i) := by
  unfold State.dropHolding
  dsimp only
  split
  · have ht := h.setGroup i (g := { s.groups.get i with holdingVoice := none }) (h.winners i)
    split
    · exact ht
    · exact ht.queueRelease _
  · exact h

theorem Ranged.clearOwedFor (h : Ranged s) (w : Voice) : Ranged (s.clearOwedFor w) := by
  unfold State.clearOwedFor
  split
  · exact h.congr
  · exact h

theorem Ranged.freeVoice (h : Ranged s) (v : Fin 8) : Ranged (s.freeVoice v) := by
  unfold State.freeVoice
  dsimp only
  apply Ranged.owes
  apply inOrder_keeps (P := Ranged) fun i _ ht => ht.dropHolding v (s.tag v) i
  apply Ranged.settleAnnounce
  exact Ranged.congr ((h.clearOwedFor (s.voice v)).setVoice v (Voice.freed_inRange (h.generations v)))

/-! ## Claims and releases -/

theorem Ranged.settleClaim (h : Ranged s) (v : Fin 8) (o : RequestOutcome) : Ranged (s.settleClaim v o) := by
  unfold State.settleClaim
  dsimp only
  split
  · exact h.recordOutcome _ _
  · exact h
  · exact h

theorem Ranged.withdraw (h : Ranged s) (v : Fin 8) (o : RequestOutcome) : Ranged (s.withdraw v o) :=
  ((h.takeOut _).settleClaim v o).freeVoice v

theorem Ranged.joinRunDown (h : Ranged s) (v : Fin 8) {r : Rate} (hr : r.legal) :
    Ranged ((s.setVoice v ((s.voice v).runDown r)).joinReleasing v) :=
  (h.setVoice v ((h.voice v).runDown hr)).congr

theorem Ranged.releaseVoice (h : Ranged s) (v : Fin 8) {r : Rate} (hr : r.legal) : Ranged (s.releaseVoice v r) := by
  unfold State.releaseVoice
  dsimp only
  split
  case h_3 => exact h.beginTail v
  case h_4 | h_5 | h_7 => exact h.freeVoice v
  case h_6 => exact Ranged.beginTail (h.setVoice v (h.voice v).runTail).congr v
  case h_8 | h_9 => split; exacts [h.freeVoice v, h.joinRunDown v hr]
  case h_10 =>
    split
    · split
      · exact h.freeVoice v
      · exact h.setVoice v ((h.voice v).runDown hr)
    · exact h
  all_goals exact h

theorem Ranged.releaseAsLine (h : Ranged s) (v : Fin 8) : Ranged (s.releaseAsLine v) := h.releaseVoice v (h.lineRelease _)

theorem Ranged.chokeVoice (h : Ranged s) (v : Fin 8) (g : Nat) : Ranged (s.releaseVoice v (.fade (s.chokeFade g))) :=
  h.releaseVoice v (h.chokeFade g)

theorem Ranged.cutVoice (h : Ranged s) (v : Fin 8) : Ranged (s.releaseVoice v .cut) := h.releaseVoice v trivial

/-! ## The take -/

theorem Ranged.takeSlot (h : Ranged s) (v : Fin 8) (c : Nat) (src : Source) (b : Bool) : Ranged (s.takeSlot v c src b) :=
  { h.setVoice v (takenVoice_inRange (s.voice v).generation c src b h.sequences.1) with
    sequences :=
      ⟨Nat.mod_lt _ (by omega),
        (h.setVoice v (takenVoice_inRange (s.voice v).generation c src b h.sequences.1)).sequences.2⟩ }

theorem Ranged.queueClaim (h : Ranged s) (v : Fin 8) (g c : Nat) : Ranged (s.queueClaim v g c) := by
  unfold State.queueClaim
  split
  · have ho := h.offerKey (.claim (BitVec.ofNat 8 g) (BitVec.ofNat 8 c)) (claimKey s.cfg.number (s.lastWinner g))
    split <;> rename_i he <;> rw [he] at ho
    · exact ho.withdraw _ _
    all_goals exact ho
  · exact h

theorem Ranged.take (h : Ranged s) (v : Fin 8) (c : Nat) (src : Source) : Ranged (s.take v c src) := by
  unfold State.take
  dsimp only
  split
  · exact (h.takeSlot v c src true).queueClaim v _ c
  · exact (((h.takeSlot v c src false).recordPlayed src).decideAnnounce v).arbitrate

/-! ## Serving -/

theorem Ranged.endRequest (h : Ranged s) (src : Source) (o : RequestOutcome) : Ranged (s.endRequest src o).1 :=
  h.recordOutcome src o

theorem Ranged.expireRequest (h : Ranged s) (src : Source) : Ranged (s.expireRequest src) := (h.recordOutcome src _).congr

theorem Ranged.stealFor (h : Ranged s) (p : Nat) : Ranged (s.stealFor p) := by
  unfold State.stealFor
  split
  · exact h
  · split
    · exact h.cutVoice _
    · split
      · exact h.cutVoice _
      · exact h

theorem Ranged.stepVoice (h : Ranged s) (c : Nat) (src : Source) : Ranged (s.stepVoice c src).1 := by
  unfold State.stepVoice
  split
  · exact h.take _ _ _
  · split
    · exact h.expireRequest src
    · exact h.stealFor _

theorem Ranged.visit {α : Type} {f : α → State → State} (h : Ranged s) (hf : ∀ a t, Ranged t → Ranged (f a t)) (l : List α) :
    Ranged (visit f l s) :=
  visit_keeps hf (fun _ _ ht => ht.congr) l h

theorem Ranged.stepGroup (h : Ranged s) (c : Nat) (src : Source) : Ranged (s.stepGroup c src).1 := by
  unfold State.stepGroup
  dsimp only
  split
  · exact h.stepVoice c src
  · split
    · exact (h.visit (fun v _ ht => ht.chokeVoice v _) _).stepVoice c src
    all_goals
      split
      · exact h.stepVoice c src
      · exact h.endRequest src _

theorem Ranged.toggleVoice (h : Ranged s) (v : Fin 8) : Ranged (s.toggleVoice v) := by
  unfold State.toggleVoice
  split
  · exact h.withdraw v _
  · exact h.releaseAsLine v

theorem Ranged.stepRetrigger (h : Ranged s) (c : Nat) (q : Cue) (src : Source) : Ranged (s.stepRetrigger c q src).1 := by
  unfold State.stepRetrigger
  split
  · exact h.stepGroup c src
  · split
    · exact h.endRequest src _
    · dsimp only
      split
      · exact h.endRequest src _
      · exact (h.visit (fun v _ ht => ht.toggleVoice v) _).endRequest src _
    · exact (h.visit (fun v _ ht => ht.cutVoice v) _).stepGroup c src
    · exact h.stepGroup c src

theorem Ranged.decideRequest (h : Ranged s) (c : Nat) (latched : Bool) (src : Source) :
    Ranged (s.decideRequest c latched src).1 := by
  unfold State.decideRequest
  split
  · exact h.endRequest src _
  · split
    · split
      · exact h
      · exact h.endRequest src _
    · split
      · exact h.endRequest src _
      · exact h.stepRetrigger c _ src

theorem Ranged.serveLine (h : Ranged s) (n : Fin 8) : Ranged (s.serveLine n) := by
  unfold State.serveLine
  split
  · exact h
  next r _ =>
    have hd := h.decideRequest r.cue r.latched (.line n)
    split <;> rename_i he <;> rw [he] at hd
    · exact hd.congr
    · exact hd

theorem Ranged.serveRemote (fuel : Nat) (h : Ranged s) : Ranged (State.serveRemote fuel s) := by
  induction fuel generalizing s with
  | zero => exact h
  | succ n ih =>
    unfold State.serveRemote
    split
    · exact h
    next r _ _ =>
      have hd := h.decideRequest r.cue false .remote
      split <;> rename_i he <;> rw [he] at hd
      · exact ih hd.congr
      · exact hd

theorem Ranged.servePlace (h : Ranged s) (p : Fin 9) : Ranged (s.servePlace p) := by
  unfold State.servePlace
  split
  · exact h.serveLine _
  · exact h.serveRemote _

theorem Ranged.servePass (h : Ranged s) : Ranged s.servePass := 
  inOrder_keeps (P := Ranged) (fun p _ ht => ht.servePlace p) _ h

theorem Ranged.passesFrom (fuel : Nat) (h : Ranged s) : Ranged (State.passesFrom fuel s) := by
  induction fuel generalizing s with
  | zero => exact h
  | succ n ih =>
    unfold State.passesFrom
    split
    · exact h
    · exact ih (h.owes _).servePass

/-- Every pass owed keeps the ranges. -/
theorem Ranged.settlePasses (h : Ranged s) : Ranged s.settlePasses := h.passesFrom _

theorem Ranged.runPass (h : Ranged s) : Ranged s.runPass := (h.owes _).settlePasses

theorem Ranged.visitServing {α : Type} {f : α → State → State} (h : Ranged s) (hf : ∀ a t, Ranged t → Ranged (f a t))
    (l : List α) : Ranged (visitServing f l s) :=
  h.visit (fun a t ht => (hf a t ht).settlePasses) l

end Sys2Proof.Machine
end

section
/-! PROOF. The ranges of `Ranged` through the effects of lines, groups, claims, STOP and the all-stop, and through what the boundaries
make due. -/

namespace Sys2Proof.Machine

set_option Elab.async false

variable {s : State}

/-! ## Lines (R24 to R34) -/

theorem Ranged.setLine (h : Ranged s) (n : Fin 8) (l : Line) : Ranged (s.setLine n l) := h.congr

theorem Ranged.addRequest (h : Ranged s) (n : Fin 8) (c : Nat) (latched : Bool) : Ranged (s.addRequest n c latched) :=
  (h.setLine n _).runPass

theorem Ranged.earlyPress (h : Ranged s) (n : Fin 8) (c : Nat) : Ranged (s.earlyPress n c) := by
  unfold State.earlyPress
  split
  · exact h
  · exact h.addRequest n c true
  · rcases s.beginPenalty_cases n with ⟨_, e⟩ | ⟨_, e⟩ <;> rw [e]
    · exact h
    · exact h.setLine n _

theorem Ranged.pressPlay (h : Ranged s) (n : Fin 8) (c : Nat) : Ranged (s.pressPlay n c) := by
  unfold State.pressPlay
  dsimp only
  have h1 := h.setLine n { (s.line n).acting true with owedRelease := false }
  split
  · exact h1
  · split
    · exact h1
    · split
      · exact h1.earlyPress n c
      · exact h1.addRequest n c false

theorem Ranged.clearRequest (h : Ranged s) (n : Fin 8) : Ranged (s.clearRequest n) := h.setLine n _

theorem Ranged.withdrawRequest (h : Ranged s) (n : Fin 8) : Ranged (s.withdrawRequest n) := by
  unfold State.withdrawRequest
  split
  · exact (h.recordOutcome _ _).clearRequest n
  · exact h

theorem Ranged.releaseLineVoice (h : Ranged s) (n : Fin 8) (c : Nat) (v : Fin 8) : Ranged (s.releaseLineVoice n c v) := by
  unfold State.releaseLineVoice
  split
  · exact h
  · split
    · exact h.withdraw v _
    · split
      · exact h.setLine n _
      · exact h.releaseAsLine v

theorem Ranged.releasePlay (h : Ranged s) (n : Fin 8) (c : Nat) : Ranged (s.releasePlay n c) :=
  ((h.setLine n _).withdrawRequest n).visitServing (fun v _ ht => ht.releaseLineVoice n c v) _

theorem Ranged.sendFrame (h : Ranged s) (f : Option Frame) : Ranged (s.sendFrame f) := by
  unfold State.sendFrame
  split
  · split
    · exact h.offer _
    · exact h
  · exact h

theorem Ranged.pressEvent (h : Ranged s) (n : Fin 8) : Ranged (s.pressEvent n) := by
  unfold State.pressEvent
  split
  · exact h.pressPlay n _
  · exact (h.setLine n _).sendFrame _

theorem Ranged.releaseEvent (h : Ranged s) (n : Fin 8) : Ranged (s.releaseEvent n) := by
  unfold State.releaseEvent
  split
  · exact h.releasePlay n _
  · exact (h.setLine n _).sendFrame _

theorem Ranged.takeLineEvent (h : Ranged s) (n : Fin 8) : Ranged (s.takeLineEvent n) := by
  unfold State.takeLineEvent
  split
  · exact h.pressEvent n
  · exact h.releaseEvent n
  · exact h

theorem Ranged.expireLine (h : Ranged s) (ripe : Request → Bool) (n : Fin 8) : Ranged (s.expireLine ripe n) := by
  rcases s.expireLine_cases ripe n with ⟨_, _, _, e⟩ | e <;> rw [e]
  · exact (h.expireRequest _).clearRequest n
  · exact h

theorem Ranged.expireRemote (h : Ranged s) (ripe : RemoteEntry → Bool) (i : Nat) : Ranged (s.expireRemote ripe i) := by
  unfold State.expireRemote
  split
  · split
    · have h1 : Ranged { s.expireRequest .remote with remote := s.remote.eraseIdx i } := (h.expireRequest .remote).congr
      dsimp only
      split
      · exact h1.runPass
      · exact h1
    · exact h
  · exact h

theorem Ranged.endPenalty (h : Ranged s) (n : Fin 8) : Ranged (s.endPenalty n) := by
  unfold State.endPenalty
  split
  · exact h.setLine n _
  · exact h

/-! ## Groups and claims (R74 to R90) -/

theorem Ranged.setArmed (h : Ranged s) (gs : GroupSet) (b : Bool) : Ranged (s.setArmed gs b) :=
  h.withGroups fun i => by
    rw [Table.get_mapIdx]
    split <;> exact h.winners i

theorem Ranged.armGroups (h : Ranged s) (gs : GroupSet) : Ranged (s.armGroups gs) := by
  unfold State.armGroups
  split
  · exact (h.setArmed gs true).runPass
  · exact h

theorem Ranged.disarmGroups (h : Ranged s) (gs : GroupSet) : Ranged (s.disarmGroups gs) := by
  unfold State.disarmGroups
  split
  · exact ((h.setArmed gs false).visitServing (fun v _ ht => ht.withdraw v _) _).runPass
  · exact h

theorem Ranged.chokeGroup (h : Ranged s) (g : Nat) : Ranged (s.chokeGroup g) := by
  unfold State.chokeGroup
  split
  · refine h.visitServing (fun v t ht => ?_) _
    split
    · exact ht.chokeVoice v g
    · exact ht
  · exact h

theorem Ranged.applyOwedRelease (h : Ranged s) (v : Fin 8) (src : Source) : Ranged (s.applyOwedRelease v src) := by
  unfold State.applyOwedRelease
  split
  · split
    · exact (h.setLine _ _).releaseAsLine v
    · exact h
  · exact h

theorem Ranged.applyStopMark (h : Ranged s) (v : Fin 8) : Ranged (s.applyStopMark v) := by
  unfold State.applyStopMark
  split
  · exact h.releaseVoice v (Nat.zero_le 7)
  · exact h

theorem Ranged.claimWon (h : Ranged s) (v : Fin 8) : Ranged (s.claimWon v) := by
  have h1 := ((h.setVoice v (w := { s.voice v with state := .priming }) (h.voice v).congr).arbitrate).decideAnnounce v
  exact (((h1.setVoice v (h1.voice v).congr).recordPlayed _).applyOwedRelease v _).applyStopMark v

theorem Ranged.ownClaim (h : Ranged s) (g : Nat) : Ranged (s.ownClaim g) := by
  unfold State.ownClaim
  split
  · exact h
  · split
    · exact h.setGroup _ h.number
    · exact (Ranged.claimWon (h.setGroup _ h.number) _).settlePasses

theorem Ranged.withdrawClaim (h : Ranged s) (g : Nat) (o : RequestOutcome) : Ranged (s.withdrawClaim g o) := by
  unfold State.withdrawClaim
  split
  · split
    · exact (h.withdraw _ o).settlePasses
    · exact h
  · exact h

theorem Ranged.foreignClaim (h : Ranged s) {src : Nat} (hs : src ≤ 30) (g : Nat) : Ranged (s.foreignClaim src g) := by
  unfold State.foreignClaim
  split
  · exact h
  · split
    · split
      · exact Ranged.withdrawClaim (h.setGroup _ hs) g .lost
      · split
        · exact h.queueHeld g
        · exact h
    · exact h

theorem Ranged.yieldVoice (h : Ranged s) (v : Fin 8) : Ranged (s.yieldVoice v) := by
  unfold State.yieldVoice
  dsimp only
  apply Ranged.cutVoice
  split
  · exact (h.setVoice v (h.voice v).congr).recordOutcome _ _
  · exact h
  · exact h

theorem Ranged.yieldHolding (h : Ranged s) (held : Option (Fin 8 × Nat)) : Ranged (s.yieldHolding held) := by
  unfold State.yieldHolding
  split
  · split
    · exact (h.yieldVoice _).settlePasses
    · exact h
  · exact h

theorem Ranged.foreignHeld (h : Ranged s) {src : Nat} (hs : src ≤ 30) (g : Nat) : Ranged (s.foreignHeld src g) := by
  unfold State.foreignHeld
  split
  · exact h
  next i _ =>
    split
    · have h1 := ((h.setGroup i (g := { s.groups.get i with
        holder := some src, lastWinner := src, holdingVoice := none, holdingLine := none }) hs).takeOut
          (Frame.keepsGroup g)).withdrawClaim g .lost
      dsimp only
      split
      · exact h1.yieldHolding _
      · exact h1
    · exact h

theorem Ranged.ownHeld (h : Ranged s) (g : Nat) : Ranged (s.ownHeld g) := by
  unfold State.ownHeld
  split
  · exact h
  · split
    · exact h.setGroup _ h.number
    · exact h

theorem Ranged.releaseGroup (h : Ranged s) (g : Nat) : Ranged (s.releaseGroup g) := by
  unfold State.releaseGroup
  split
  · exact h
  next i _ =>
    split
    · have h1 := (h.takeOut (Frame.keepsGroup g)).setGroup i
        (g := { s.groups.get i with holder := none, holdingVoice := none, holdingLine := none }) (h.winners i)
      dsimp only
      split
      · exact h1.runPass
      · exact h1
    · exact h

theorem Ranged.releaseHeld (h : Ranged s) (i : Fin 15) : Ranged (s.releaseHeld i) := by
  unfold State.releaseHeld
  split
  · exact h.queueRelease _
  · exact h

/-! ## STOP, the all-stop, FIRE and ASK (R33, R35, R70, R71, R152) -/

theorem Ranged.stopRequest (h : Ranged s) (c : Nat) (n : Fin 8) : Ranged (s.stopRequest c n) := by
  unfold State.stopRequest
  split
  · split
    · exact h.withdrawRequest n
    · exact h
  · exact h

theorem Ranged.withdrawRemote (h : Ranged s) (p : RemoteEntry → Bool) : Ranged (s.withdrawRemote p) := by
  unfold State.withdrawRemote
  split
  · have h1 : Ranged { s.recordOutcome .remote .withdrawn with remote := s.remote.filter fun r => !p r } :=
      (h.recordOutcome _ _).congr
    dsimp only
    split
    · exact h1.runPass
    · exact h1
  · exact h

theorem Ranged.stopVoice (h : Ranged s) {k : Nat} (hk : k ≤ 7) (v : Fin 8) : Ranged (s.stopVoice k v) := by
  unfold State.stopVoice
  dsimp only
  split
  · exact h.withdraw v _
  · split
    · exact h.setVoice v (h.voice v).congr
    · exact h.releaseVoice v hk

theorem Ranged.stopCue (h : Ranged s) (c : Nat) {k : Nat} (hk : k ≤ 7) : Ranged (s.stopCue c k) := by
  have h1 : Ranged (s.stopRequests c) :=
    Ranged.withdrawRemote (inOrder_keeps (P := Ranged) (fun n _ ht => ht.stopRequest c n) slots h) _
  refine h1.visitServing (fun v t ht => ?_) _
  split
  · exact ht.stopVoice hk v
  · exact ht

theorem Ranged.allStopRequests (h : Ranged s) : Ranged s.allStopRequests := by
  unfold State.allStopRequests
  apply Ranged.withdrawRemote
  exact inOrder_keeps (P := Ranged) (fun n _ ht => (ht.withdrawRequest n).setLine n _) slots h

theorem Ranged.allStopPart (h : Ranged s) {k : Nat} (hk : k ≤ 7) (p : AllStopPart) : Ranged (s.allStopPart k p) := by
  cases p
  case requests => exact h.allStopRequests
  case voices => exact h.visitServing (fun v _ ht => ht.stopVoice hk v) _
  case groups => exact h.visit (fun i _ ht => ht.releaseHeld i) _

theorem Ranged.setPair (h : Ranged s) (o : OutPair) (p : Pair) : Ranged (s.setPair o p) := by
  cases o <;> exact h.congr

theorem Ranged.tripPair (h : Ranged s) (o : OutPair) : Ranged (s.tripPair o) := by
  unfold State.tripPair
  split
  · exact (h.setPair o _).congr
  · exact h

theorem Ranged.allStopOutput (h : Ranged s) : Ranged s.allStopOutput := h.congr

theorem Ranged.allStop (h : Ranged s) {k : Nat} (hk : k ≤ 7) : Ranged (s.allStop k) := by
  have h1 : Ranged s.takeTrips := (h.tripPair .pgm).tripPair .floor
  exact h1.allStopOutput.visit (fun p _ ht => ht.allStopPart hk p) _

theorem Ranged.stopFrame (h : Ranged s) (target cue : Byte) (fade : BitVec 3) : Ranged (s.stopFrame target cue fade) := by
  have hk : fade.toNat ≤ 7 := Nat.lt_succ_iff.mp fade.isLt
  unfold State.stopFrame
  split
  · split
    · exact h.allStop hk
    · exact h.stopCue _ hk
  · exact h

theorem Ranged.fireCue (h : Ranged s) (src c : Nat) : Ranged (s.fireCue src c) := by
  unfold State.fireCue
  split
  · exact h
  · split
    · exact Ranged.runPass h.congr
    · exact h.congr

theorem Ranged.fireFrame (h : Ranged s) (src : Nat) (target cue : Byte) : Ranged (s.fireFrame src target cue) := by
  unfold State.fireFrame
  split
  · exact h.fireCue _ _
  · exact h

theorem Ranged.askFrame (h : Ranged s) (target : Byte) : Ranged (s.askFrame target) := by
  unfold State.askFrame
  split
  · exact h.offerStatus
  · exact h

/-! ## What an earlier boundary made due (log entry 2) -/

theorem Ranged.endData (h : Ranged s) (v : Fin 8) : Ranged (s.endData v) := by
  unfold State.endData
  split
  · exact (h.freeVoice v).settlePasses
  · exact h

theorem Ranged.latchDeadAir (h : Ranged s) (o : OutPair) : Ranged (s.latchDeadAir o) := by
  unfold State.latchDeadAir
  split
  · exact (h.setPair o _).congr
  · exact h

theorem Ranged.recoverPair (h : Ranged s) (o : OutPair) : Ranged (s.recoverPair o) := by
  unfold State.recoverPair
  split
  · exact h.setPair o _
  · exact h

theorem Ranged.settlePair (h : Ranged s) (o : OutPair) : Ranged (s.settlePair o) :=
  (((h.latchDeadAir o).setPair o _).tripPair o).recoverPair o

theorem Ranged.endJoinWait (h : Ranged s) : Ranged s.endJoinWait := by
  unfold State.endJoinWait
  split
  · exact h.congr
  · exact h

theorem Ranged.withDucks (h : Ranged s) (l : List DuckEntry) : Ranged { s with ducks := l } := h.congr

theorem Ranged.settle (h : Ranged s) : Ranged s.settle := by
  have h1 := inOrder_keeps (P := Ranged) (fun n _ ht => ht.takeLineEvent n) slots h
  have h2 := inOrder_keeps (P := Ranged) (fun v _ ht => ht.endData v) slots h1
  have h3 := inOrder_keeps (P := Ranged) (fun n t ht => ht.expireLine (fun r => t.ripe r.age) n) slots h2
  have h4 := inOrder_keeps (P := Ranged) (fun i t ht => ht.expireRemote (fun r => t.ripe r.age) i) [3, 2, 1, 0] h3
  have h5 := ((h4.settlePair .pgm).settlePair .floor).endJoinWait
  have h6 := inOrder_keeps (P := Ranged) (fun n _ ht => ht.endPenalty n) slots h5
  exact h6.withDucks _

/-! ## Own frames, frames of other stations and the wire -/

theorem Ranged.enterSilent (h : Ranged s) : Ranged s.enterSilent := by
  refine Ranged.visitServing ?_ (fun v _ ht => ht.withdraw v _) _
  refine Ranged.congr (h.withVoices (vs := s.voices.map Voice.toLocal) fun v => ?_)
  rw [Table.get_map]
  refine (h.voice v).congr ?_ ?_ ?_ <;> unfold Voice.toLocal <;> split <;> rfl

theorem Ranged.duplicateFrame (h : Ranged s) (fresh : Bool) : Ranged (s.duplicateFrame fresh) := by
  unfold State.duplicateFrame
  split
  · exact h.enterSilent
  · split
    · exact h.offerStatus
    · exact h.enterSilent
  · exact h
  · exact h

theorem Ranged.duckStart (h : Ranged s) (src tag : Nat) (emit : ClassSet) (depth hold : Nat) :
    Ranged (s.duckStart src tag emit depth hold) := by
  unfold State.duckStart
  dsimp only
  split
  · exact h.congr
  · split
    · exact h.congr
    · exact Ranged.latchIf h.congr _ _

theorem Ranged.applyForeign (h : Ranged s) {src : Nat} (hs : src ≤ 30) (f : Frame) : Ranged (s.applyForeign src f) := by
  cases f
  case claim => exact h.foreignClaim hs _
  case held => exact h.foreignHeld hs _
  case release => exact h.releaseGroup _
  case start => exact (h.duckStart _ _ _ _ _).chokeGroup _
  case endFrame | hold => exact h.congr
  case stop => exact h.stopFrame _ _ _
  case fire => exact h.fireFrame _ _ _
  case arm => exact h.armGroups _
  case disarm => exact h.disarmGroups _
  case ask => exact h.askFrame _
  case status => exact h

theorem Ranged.countFrame (h : Ranged s) : Ranged s.countFrame := { h with received := Nat.mod_lt _ (by omega) }

theorem Ranged.receiveFrame (h : Ranged s) (source : BitVec 5) (f : Option Frame) : Ranged (s.receiveFrame source f) := by
  unfold State.receiveFrame
  split
  · exact h
  · split
    · exact h.countFrame.duplicateFrame _
    · split
      · exact h.countFrame
      next hn =>
        split
        · exact h.countFrame
        · refine h.countFrame.applyForeign ?_ _
          have hlt := source.isLt
          simp only [isNoStation, Bool.or_eq_true, beq_iff_eq, not_or] at hn
          omega

theorem Ranged.flightDone (h : Ranged s) (heard : Bool) : Ranged (s.flightDone heard) := Ranged.latchIf h.congr _ _

theorem Ranged.ownStart (h : Ranged s) (tag hold : Nat) : Ranged (s.ownStart tag hold) := by
  unfold State.ownStart
  dsimp only
  split
  · exact h.setVoice _ (h.voice _).congr
  · split
    · split
      · exact Ranged.offer h.congr _
      · exact h
    · exact h

theorem Ranged.ownHold (h : Ranged s) (tag hold : Nat) : Ranged (s.ownHold tag hold) := by
  unfold State.ownHold
  dsimp only
  split
  · split
    · exact h.setVoice _ (h.voice _).congr
    · exact h
  · exact h
  · exact h

theorem Ranged.statusDone (h : Ranged s) (b2 b3 : Byte) : Ranged (s.statusDone b2 b3) := by
  refine Ranged.congr (inOrder_keeps (P := Ranged) (fun f t ht => ?_) allFlags h)
  unfold State.clearCarried
  split
  · exact ht.congr
  · exact ht

theorem Ranged.joinStatusDone (h : Ranged s) : Ranged s.joinStatusDone := by
  unfold State.joinStatusDone
  split
  · exact h.congr
  · exact h

theorem Ranged.applyOwn (h : Ranged s) (f : Frame) : Ranged (s.applyOwn f) := by
  cases f
  case claim => exact h.ownClaim _
  case held => exact h.ownHeld _
  case release => exact h.releaseGroup _
  case start => exact h.ownStart _ _
  case hold => exact h.ownHold _ _
  case stop => exact h.stopFrame _ _ _
  case fire => exact h.fireFrame _ _ _
  case arm => exact h.armGroups _
  case disarm => exact h.disarmGroups _
  case status => exact (h.statusDone _ _).joinStatusDone
  case endFrame | ask => exact h

theorem Ranged.completeOwn (h : Ranged s) (heard : Bool) (p : Frame → Bool) : Ranged (s.completeOwn heard p) := by
  unfold State.completeOwn
  split
  · split
    · exact (h.flightDone heard).applyOwn _
    · exact h
  · exact h

theorem Ranged.completeFrame (h : Ranged s) (sender : Sender) (f : Frame) : Ranged (s.completeFrame sender f) := by
  unfold State.completeFrame
  split
  · exact h.completeOwn _ _
  · exact h.receiveFrame _ _

theorem Ranged.dropOver (h : Ranged s) : Ranged s.dropOver := by
  obtain ⟨-, e⟩ | ⟨-, e⟩ := s.dropOver_cases <;> rw [e]
  · exact h
  · exact h.congr

theorem Ranged.offerJoin (h : Ranged s) : Ranged s.offerJoin := by
  unfold State.offerJoin
  split
  · exact Ranged.offerStatus h.congr
  · exact h

theorem Ranged.begin (h : Ranged s) (place : Nat) : Ranged (s.begin place) := by
  unfold State.begin
  split
  · exact h.congr
  · exact h

theorem Ranged.heldOff (h : Ranged s) (f : Frame) : Ranged (s.heldOff f) := by
  cases f <;> unfold State.heldOff <;> dsimp only
  case start =>
    split
    · split
      · exact h.congr
      · exact h
    · exact h
  case claim =>
    split
    · split
      · exact (h.withdraw _ _).settlePasses
      · exact h
    · exact h
  all_goals exact h

theorem Ranged.returnFlight (h : Ranged s) (f : Frame) (n : Nat) : Ranged (s.returnFlight f n) := Ranged.heldOff h.congr f

theorem Ranged.dropped (h : Ranged s) (f : Frame) : Ranged (s.dropped f) := by
  cases f <;> unfold State.dropped <;> dsimp only
  case start t _ _ _ =>
    have h1 := h.loseStart t.toNat
    split
    · split
      · exact h1.congr
      · exact h1
    · exact h1
  case claim =>
    split
    · exact (h.withdraw _ _).settlePasses
    · exact h
  case status =>
    split
    · exact h.enterSilent
    · exact h
  all_goals exact h

theorem Ranged.dropFlight (h : Ranged s) (f : Frame) : Ranged (s.dropFlight f) := Ranged.dropped h.congr f

end Sys2Proof.Machine
end

section
/-! PROOF. What is done at the start of a boundary or an instant (log entry 2) keeps every property that the single updates keep; the
timebase is one. -/

namespace Sys2Proof.Machine

set_option Elab.async false

variable {P : State → Prop} (hP : Stable P) (hpair : ∀ {t : State} o p, P t → P (t.setPair o p)) {s : State}
include hP hpair

theorem Stable.latchDeadAir (o : OutPair) (h : P s) : P (s.latchDeadAir o) := by
  unfold State.latchDeadAir
  split
  · exact hP.latch _ (hpair o _ h)
  · exact h

theorem Stable.tripPair (o : OutPair) (h : P s) : P (s.tripPair o) := by
  unfold State.tripPair
  split
  · exact hP.latch _ (hpair o _ h)
  · exact h

theorem Stable.settlePair (o : OutPair) (h : P s) : P (s.settlePair o) := by
  have h1 := hP.tripPair hpair o (hpair o ((s.latchDeadAir o).pair o).forgive (hP.latchDeadAir hpair o h))
  unfold State.settlePair State.recoverPair
  dsimp only
  split
  · exact hpair o _ h1
  · exact h1

/-- What `settle` does keeps a stable property that the updates of a pair, the end of the join wait and the removal of duck entries keep
as well. -/
theorem Stable.settle (hrun : ∀ {t : State}, P t → P { t with mode := .run, join := .done })
    (hducks : ∀ {t : State} l, P t → P { t with ducks := l }) (h : P s) : P s.settle := by
  have h1 := inOrder_keeps (fun n _ ht => hP.takeLineEvent n ht) slots h
  have h2 := inOrder_keeps (fun v _ ht => hP.endData v ht) slots h1
  have h3 := inOrder_keeps (fun n t ht => hP.expireLine (fun r => t.ripe r.age) n ht) slots h2
  have h4 := inOrder_keeps (fun i t ht => hP.expireRemote (fun r => t.ripe r.age) i ht) [3, 2, 1, 0] h3
  have h5 := hP.settlePair hpair .floor (hP.settlePair hpair .pgm h4)
  apply hducks
  apply inOrder_keeps fun n _ ht => hP.endPenalty n ht
  unfold State.endJoinWait
  split
  · exact hrun h5
  · exact h5

omit hP hpair in
/-- No operation on voices and no serving pass counts in the timebase. -/
theorem tmb_stable (b : Timebase) : Stable fun s => s.tmb = b where
  voices := fun _ h => h
  lines := fun _ h => h
  groups := fun _ h => h
  releasing := fun _ h => h
  link := fun _ h => h
  owedEnd := fun _ h => h
  outcomes := fun _ h => h
  pointer := fun _ h => h
  passesDue := fun _ h => h
  choices := fun _ h => h
  startCounter := fun _ h => h
  remote := fun _ h _ => h
  flags := fun _ h => h
  takeOut := fun _ h => h
  offer := fun {s} f k h _ _ => (offerKey_kept s f k).tmb.trans h

omit hP hpair in
theorem settle_tmb (s : State) : s.settle.tmb = s.tmb :=
  (tmb_stable s.tmb).settle (fun o _ h => by cases o <;> exact h) id (fun _ h => h) rfl

end Sys2Proof.Machine
end

section
/-! PROOF. What a sample instant does to one voice (R13, R21, R94 to R101). -/

namespace Sys2Proof.Machine

set_option Elab.async false

variable (w : Voice) (q : Cue)

/-- Playing takes the head of the buffer and moves the play offset on by one; only an underrun moves the fetch offset (R13, R21). -/
theorem Voice.playFrame_frame :
    w.playFrame =
      { w with buffer := w.buffer.tail, playOffset := w.playOffset + 1, fetchOffset := w.playFrame.fetchOffset } := by
  unfold Voice.playFrame
  split <;> simp_all

/-- The levels' part of a sample instant: V has stepped once, no mark of an early step is left, and D moves as `stepD` says for a voice
that ducks (R94, R101; log entry 7). -/
theorem Voice.stepLevels_frame (c : StationConfig) (d : Nat) :
    w.stepLevels q c d =
      { w with
        level := if w.vDone then w.level else (w.stepV q).level
        vCount := if w.vDone then w.vCount else (w.stepV q).vCount
        vDone := false
        duck := (w.stepLevels q c d).duck
        dCount := (w.stepLevels q c d).dCount
        dDir := (w.stepLevels q c d).dDir
        dBefore := none } := by
  have hv := w.stepVOnce_frame q
  have hr := (w.stepVOnce q).restoreDuck_frame
  unfold Voice.stepLevels
  dsimp only
  split
  · rw [Voice.stepD_frame, hr, hv]
  · rw [hr, hv]

/-- A step of V reads nothing that playing changes. -/
theorem Voice.stepV_of_played (b : List SampleFrame) (m n : Nat) :
    { w with buffer := b, playOffset := m, fetchOffset := n }.stepV q =
      { w.stepV q with buffer := b, playOffset := m, fetchOffset := n } := by
  have hrate : { w with buffer := b, playOffset := m, fetchOffset := n }.vRate q = w.vRate q := rfl
  unfold Voice.stepV
  rw [hrate]
  cases hr : w.vRate q with
  | none => rfl
  | some r =>
    cases r with
    | cut | tail => rfl
    | fade k =>
      dsimp only
      unfold Voice.fadeOnce
      split_ifs <;> rfl

/-- A sample instant on one voice: it plays or not, V has stepped once, and no mark of an early step is left. -/
theorem Voice.tick_frame (c : StationConfig) (d : Nat) :
    w.tick q c d =
      { w with
        playOffset := if w.playsNow q then w.playOffset + 1 else w.playOffset
        buffer := if w.playsNow q then w.buffer.tail else w.buffer
        fetchOffset := (w.tick q c d).fetchOffset
        level := if w.vDone then w.level else (w.stepV q).level
        vCount := if w.vDone then w.vCount else (w.stepV q).vCount
        vDone := false
        duck := (w.tick q c d).duck
        dCount := (w.tick q c d).dCount
        dDir := (w.tick q c d).dDir
        dBefore := none } := by
  unfold Voice.tick
  split
  · rw [Voice.stepLevels_frame, Voice.playFrame_frame, Voice.stepV_of_played]
  · rw [Voice.stepLevels_frame]

/-- An underrun leaves no fetch offset behind the play offset (R21). -/
theorem Voice.tick_fetchOffset (c : StationConfig) (d : Nat) (hp : w.playsNow q = true) (hb : w.buffer = []) :
    (w.tick q c d).playOffset ≤ (w.tick q c d).fetchOffset := by
  unfold Voice.tick
  rw [if_pos hp, Voice.stepLevels_frame]
  simp [Voice.playFrame, hb]

/-- What D, its count and its direction are compared from at the coming instant: what stood before a DUCK_STEP of it (R101; log
entry 7). -/
def Voice.beforeDuckStep (w : Voice) : DuckBefore := w.dBefore.getD { duck := w.duck, dCount := w.dCount, dDir := w.dDir }

theorem Voice.restoreDuck_duck :
    w.restoreDuck.duck = w.beforeDuckStep.duck ∧ w.restoreDuck.dCount = w.beforeDuckStep.dCount ∧
      w.restoreDuck.dDir = w.beforeDuckStep.dDir := by
  unfold Voice.restoreDuck Voice.beforeDuckStep
  split <;> simp_all

/-- A voice that ducks steps D from where it stood before a DUCK_STEP of the instant. -/
theorem Voice.tick_duck (c : StationConfig) (d : Nat) (ha : w.state.active = true) :
    ∃ x : Voice, (x.duck = w.beforeDuckStep.duck ∧ x.dCount = w.beforeDuckStep.dCount ∧ x.dDir = w.beforeDuckStep.dDir) ∧
      (w.tick q c d).duck = (x.stepD c d).duck ∧ (w.tick q c d).dCount = (x.stepD c d).dCount ∧
      (w.tick q c d).dDir = (x.stepD c d).dDir := by
  unfold Voice.tick
  generalize hu : (if w.playsNow q then w.playFrame else w) = u
  have hb : u.state = w.state ∧ u.beforeDuckStep = w.beforeDuckStep := by
    rw [← hu]
    split
    · rw [Voice.playFrame_frame]
      exact ⟨rfl, rfl⟩
    · exact ⟨rfl, rfl⟩
  have hs : (u.stepVOnce q).restoreDuck.state = u.state ∧ (u.stepVOnce q).beforeDuckStep = u.beforeDuckStep := by
    rw [Voice.restoreDuck_frame, Voice.stepVOnce_frame]
    exact ⟨rfl, rfl⟩
  refine ⟨(u.stepVOnce q).restoreDuck, ?_, ?_⟩
  · rw [← hb.2, ← hs.2]
    exact Voice.restoreDuck_duck _
  · unfold Voice.stepLevels
    dsimp only
    rw [if_pos (by rw [hs.1, hb.1]; exact ha)]
    exact ⟨rfl, rfl, rfl⟩

/-- One step of D toward D* (R101): a direction that is not the recorded one starts the count again; D moves at once at index 0, and
otherwise by one code when the count comes to the step length. -/
theorem Voice.stepD_moves (c : StationConfig) (d : Nat) :
    let u := w.stepD c d
    let dir := directionOf w.duck d
    let count := if dir = w.dDir then w.dCount else 0
    let k := if w.duck < d then c.attack else c.release
    (w.duck = d → u.duck = d ∧ u.dDir = .atRest ∧ u.dCount = count) ∧
    (w.duck ≠ d → k = 0 → u.duck = d ∧ u.dDir = .atRest ∧ u.dCount = 0) ∧
    (w.duck ≠ d → k ≠ 0 → count + 1 < 2 ^ (k + 2) → u.duck = w.duck ∧ u.dDir = dir ∧ u.dCount = count + 1) ∧
    (w.duck ≠ d → k ≠ 0 → 2 ^ (k + 2) ≤ count + 1 →
      u.duck = toward w.duck d ∧ u.dDir = directionOf u.duck d ∧ u.dCount = 0) := by
  dsimp only
  have ht : w.turn d = { w with
      dCount := if directionOf w.duck d = w.dDir then w.dCount else 0, dDir := directionOf w.duck d } := by
    unfold Voice.turn
    split
    · simp_all
    · rfl
  have hk : w.duck ≠ d → c.duckIndex (directionOf w.duck d) = if w.duck < d then c.attack else c.release := by
    intro hne
    unfold directionOf
    split
    · rfl
    · rw [if_pos (by omega)]
      rfl
  unfold Voice.stepD
  rw [ht]
  dsimp only
  refine ⟨fun he => ?_, fun hne h0 => ?_, fun hne h0 hlt => ?_, fun hne h0 hle => ?_⟩
  · simp [he, directionOf]
  · rw [if_neg hne, hk hne, if_pos h0]
    exact ⟨rfl, rfl, rfl⟩
  · rw [if_neg hne, hk hne, if_neg h0, if_neg (by unfold stepLength; omega)]
    exact ⟨rfl, rfl, rfl⟩
  · rw [if_neg hne, hk hne, if_neg h0, if_pos (show stepLength _ ≤ _ from hle)]
    exact ⟨rfl, rfl, rfl⟩

end Sys2Proof.Machine
end

section
/-! PROOF. Every step keeps the ranges (EveryStepKeepsTheRanges), and they hold right after reset (ResetMeetsTheBounds). -/

namespace Sys2Proof.Machine

set_option Elab.async false

/-! ## What LDR reads is in range (R5, R162) -/

theorem fieldAt_lt (b : List Byte) (i hi lo : Nat) : fieldAt b i hi lo < 2 ^ (hi + 1 - lo) := Nat.mod_lt _ (by positivity)

theorem decodeNumber_le (b : List Byte) : decodeNumber b ≤ 30 := by
  have h := fieldAt_lt b 0 4 0
  unfold decodeNumber
  split <;> omega

theorem decodeGroup_chokeFade_le (b : List Byte) (g : Nat) : (decodeGroup b g).1.chokeFade ≤ 7 := by
  have h := fieldAt_lt b (15 + g) 5 3
  unfold decodeGroup
  dsimp only
  split <;> exact Nat.lt_succ_iff.mp h

/-- What a configuration must hold for `Ranged` (R162). -/
structure StationConfig.InRange (c : StationConfig) : Prop where
  number : c.number ≤ 30
  chokes : ∀ i, (c.groups.get i).chokeFade ≤ 7

theorem decodeConfig_inRange (b : List Byte) : (decodeConfig b).InRange where
  number := decodeNumber_le b
  chokes := fun i => by
    unfold decodeConfig
    rw [Table.get_mapIdx]
    exact decodeGroup_chokeFade_le b _

theorem defaultConfig_inRange : StationConfig.default.InRange := ⟨by decide, by decide⟩

/-- A record that R4 makes PRESENT has fade indices of at most 7 (R5). -/
theorem classifyRecord_fades {b : List Byte} {q : Cue} (h : classifyRecord b = .present q) : q.fadeIn ≤ 7 ∧ q.fadeOut ≤ 7 := by
  unfold classifyRecord at h
  split at h
  · cases h
  · split at h
    · split at h
      · split at h
        next p hp =>
          cases h
          simp only [Cue.consistent, Bool.and_eq_true, decide_eq_true_eq] at hp
          obtain ⟨⟨⟨⟨_, hin⟩, hout⟩, _⟩, _⟩ := hp
          exact ⟨hin, hout⟩
        · cases h
      · cases h
    · cases h

theorem directoryOf_fades (bytes : List Byte) (c : Fin 255) (q : Cue) (h : (directoryOf bytes).get c = .present q) :
    q.fadeIn ≤ 7 ∧ q.fadeOut ≤ 7 := by
  unfold directoryOf Table.ofList Table.get at h
  rw [List.getElem_map] at h
  exact classifyRecord_fades h

variable {s : State}

theorem Ranged.useConfig (h : Ranged s) {c : StationConfig} (hc : c.InRange) (b : Bool) : Ranged (s.useConfig c b) :=
  { h with
    number := hc.number
    chokes := hc.chokes
    winners := fun i => by
      unfold State.useConfig
      rw [Table.get_map]
      exact Nat.zero_le 30 }

theorem Ranged.testConfig (h : Ranged s) (bytes : List Byte) : Ranged (s.testConfig bytes) := by
  unfold State.testConfig
  split
  · split
    · exact h.useConfig (decodeConfig_inRange bytes) _
    · exact h.congr
  · split
    · exact h.useConfig (decodeConfig_inRange bytes) _
    · exact h.useConfig defaultConfig_inRange _
  · exact h

theorem Ranged.fillDirectory (h : Ranged s) (bytes : List Byte) : Ranged (s.fillDirectory bytes) :=
  { h with fades := directoryOf_fades bytes }

/-! ## The timebase (R1) -/

theorem Timebase.blockDue_iff (b : Timebase) : b.blockDue = true ↔ 48 ≤ b.samples := decide_eq_true_iff

theorem Timebase.unitDue_iff (b : Timebase) : b.unitDue = true ↔ 10 ≤ b.blocks := decide_eq_true_iff

/-- A sample instant that comes before no boundary is counted within the block. -/
theorem Timebase.InPhase.countSample {b : Timebase} (h : b.InPhase) (hb : ¬b.blockDue) (hu : ¬b.unitDue) : b.countSample.InPhase := by
  rw [Timebase.blockDue_iff] at hb
  rw [Timebase.unitDue_iff] at hu
  refine ⟨?_, h.blocks, fun e => absurd (Nat.le_of_eq e.symm) hu, h.lamp⟩
  change b.samples + 1 ≤ 48
  omega

/-- A block boundary that is due leaves no instant counted, and is counted within the hold unit. -/
theorem Timebase.InPhase.countBlock {b : Timebase} (h : b.InPhase) (hb : b.blockDue) : b.countBlock.InPhase := by
  rw [Timebase.blockDue_iff] at hb
  have hunit := h.unit
  have hblocks := h.blocks
  refine ⟨Nat.zero_le 48, ?_, fun _ => rfl, Nat.mod_lt _ (by decide)⟩
  change b.blocks + 1 ≤ 10
  omega

theorem Ranged.withTmb (h : Ranged s) {b : Timebase} (hb : b.InPhase) : Ranged { s with tmb := b } := { h with timebase := hb }

/-! ## The instant and the boundaries -/

theorem Voice.InRange.tick {w : Voice} (h : w.InRange) (q : Cue) (c : StationConfig) (d : Nat) : (w.tick q c d).InRange := by
  rw [Voice.tick_frame]
  exact h.congr

theorem Ranged.flagMayEnd (h : Ranged s) : Ranged s.flagMayEnd := by
  have hc : Ranged { s with choices := s.choices + 1 } := h.congr
  obtain ⟨-, e⟩ | ⟨-, e | e⟩ := s.flagMayEnd_cases <;> rw [e]
  · exact h
  · exact hc
  · exact hc.dropOver

theorem Ranged.mixInstant (h : Ranged s) : Ranged s.mixInstant := by
  refine Ranged.latchIf (Ranged.congr (h.withVoices (vs := s.tickVoices) fun v => ?_)) _ _
  unfold State.tickVoices
  rw [Table.get_mapIdx]
  exact (h.voice v).tick _ _ _

theorem Ranged.freeRunOut (h : Ranged s) : Ranged s.freeRunOut := by
  refine h.visitServing (fun v t ht => ?_) _
  split
  · exact ht.freeVoice v
  · exact ht

theorem Ranged.sampleInstant (h : Ranged s) (hb : ¬s.tmb.blockDue) (hu : ¬s.tmb.unitDue) : Ranged s.sampleInstant := by
  have ht : Ranged { s.settle with tmb := s.settle.tmb.countSample } :=
    h.settle.withTmb (by rw [settle_tmb]; exact h.timebase.countSample hb hu)
  unfold State.sampleInstant
  dsimp only
  split
  · exact ht.congr
  · exact ht.flagMayEnd.mixInstant.arbitrate.freeRunOut

theorem Ranged.sampleLines (h : Ranged s) (levels : Byte) : Ranged (s.sampleLines levels) :=
  inOrder_keeps (P := Ranged) (fun n t ht => ht.setLine n ((t.line n).sample (t.lineConfig n) t.cfg.debounce
    (sampledActive (t.lineConfig n) levels n.val))) slots h

theorem Ranged.ageRequests (h : Ranged s) : Ranged s.ageRequests := h.congr

theorem Ranged.judgeBlock (h : Ranged s) : Ranged s.judgeBlock := Ranged.congr ((h.latchIf _ _).latchIf _ _)

theorem Ranged.blockBoundary (h : Ranged s) (levels : Byte) (hb : s.tmb.blockDue) : Ranged (s.blockBoundary levels) := by
  have ht : Ranged { s.settle with tmb := s.settle.tmb.countBlock } :=
    h.settle.withTmb (by rw [settle_tmb]; exact h.timebase.countBlock hb)
  unfold State.blockBoundary
  dsimp only
  split
  · exact ht
  · exact (ht.sampleLines levels).ageRequests.judgeBlock

theorem Ranged.countHolds (h : Ranged s) : Ranged s.countHolds := by
  refine Ranged.visit (h.withVoices fun v => ?_) (fun v t ht => ?_) _
  · rw [Table.get_map]
    exact (h.voice v).congr
  · unfold State.refreshHold
    split
    · split
      · exact ht.offer _
      · exact ht
    · exact ht

theorem Ranged.countPenalties (h : Ranged s) : Ranged s.countPenalties := h.congr

theorem Ranged.countDucks (h : Ranged s) : Ranged s.countDucks := h.congr

theorem Ranged.holdUnitBoundary (h : Ranged s) : Ranged s.holdUnitBoundary := by
  have ht : Ranged { s.settle with tmb := { s.settle.tmb with blocks := 0 } } :=
    h.settle.withTmb (by rw [settle_tmb]; exact ⟨h.timebase.samples, Nat.zero_le 10, nofun, h.timebase.lamp⟩)
  unfold State.holdUnitBoundary
  dsimp only
  split
  · exact ht
  · exact ht.countPenalties.countHolds.countDucks

/-! ## The commands -/

theorem Ranged.readEnd {t : State} (h : Ranged s) {bytes : List Byte} (he : execReadEnd bytes s = .next t) : Ranged t := by
  unfold execReadEnd at he
  split at he
  · cases he
    exact h
  · split at he
    · cases he
      exact h
    · split at he
      · cases he
        exact Ranged.arbitrate h.congr
      · split at he
        · cases he
        · cases he
          apply Ranged.arbitrate
          split
          · exact Ranged.congr (h.land _ _ _)
          · exact h.congr

theorem Ranged.fadeStep (h : Ranged s) (v : Fin 8) {t : State} (he : execFadeStep v s = .next t) : Ranged t := by
  cases he
  split
  · refine h.setVoice v ?_
    rw [Voice.stepV_frame]
    exact (h.voice v).congr
  · exact h

theorem Ranged.duckStep (h : Ranged s) (v : Fin 8) {t : State} (he : execDuckStep v s = .next t) : Ranged t := by
  cases he
  split
  · refine h.setVoice v ?_
    rw [Voice.stepD_frame]
    exact (h.voice v).congr
  · exact h

theorem Ranged.requestExpiry (h : Ranged s) (which : RequestPlace) {t : State} (he : execRequestExpiry which s = .next t) :
    Ranged t := by
  cases he
  split
  · exact h.expireLine _ _
  · exact h.expireRemote _ _

theorem Ranged.configReadEnd (h : Ranged s) {bytes : List Byte} {t : State} (he : execConfigReadEnd bytes s = .next t) :
    Ranged t := by
  unfold execConfigReadEnd at he
  split at he
  · cases he
  · cases he
    split
    · exact h.testConfig bytes
    · exact h

theorem Ranged.directoryReadEnd (h : Ranged s) {bytes : List Byte} {t : State} (he : execDirectoryReadEnd bytes s = .next t) :
    Ranged t := by
  unfold execDirectoryReadEnd at he
  split at he
  · cases he
  · cases he
    split
    · exact (h.fillDirectory bytes).congr
    · exact h

theorem Ranged.guarded (h : Ranged s) (b : Bool) {u : State} (hu : Ranged u) : Ranged (if b then s else u) := by
  split
  · exact h
  · exact hu

theorem Ranged.busIdle (h : Ranged s) {t : State} (he : execBusIdle s = .next t) : Ranged t := by
  cases he
  split
  · exact h
  · exact Ranged.offerJoin h.dropOver.congr

theorem Ranged.frameBegin (h : Ranged s) {t : State} (he : execFrameBegin s = .next t) : Ranged t := by
  cases he
  split
  · split
    · exact h.begin _
    · exact h
  · exact h

theorem Ranged.arbitrationLost (h : Ranged s) {t : State} (he : execArbitrationLost s = .next t) : Ranged t := by
  cases he
  split
  · exact Ranged.returnFlight h.congr _ _
  · exact h

theorem Ranged.bitError (h : Ranged s) {t : State} (he : execBitError s = .next t) : Ranged t := by
  have hd : Ranged s.driveError := h.congr
  cases he
  split
  · split
    · exact hd.dropFlight _
    · exact hd.returnFlight _ _
  · exact h

theorem Ranged.rxDiscard (h : Ranged s) {bits : List Bool} {t : State} (he : execRxDiscard bits s = .next t) : Ranged t := by
  unfold execRxDiscard at he
  split at he
  · cases he
  · cases he
    split
    · split
      · exact h.congr
      · exact h
    · exact h
    · exact h

theorem Ranged.receiveRaw (h : Ranged s) {kind source : BitVec 5} {payload : List Byte} {t : State}
    (he : receiveRaw kind source payload s = .next t) : Ranged t := by
  unfold Machine.receiveRaw at he
  split at he
  · cases he
    exact h.receiveFrame _ _
  · cases he

theorem Ranged.rxStartBit (h : Ranged s) {t : State} (he : execRxStartBit s = .next t) : Ranged t := by
  cases he
  split
  · exact h.congr
  · exact h

theorem Ranged.reset : Ranged State.reset where
  number := by decide
  generations := by decide
  sequences := by decide
  rates := fun v r h => by simp [State.voice, State.reset, Voice.freed] at h
  winners := by decide
  received := by decide
  fades := fun c q h => by simp [State.reset] at h
  chokes := by decide
  timebase := ⟨by decide, by decide, by decide, by decide⟩

/-- Every command keeps the ranges. -/
theorem Ranged.exec {t : State} (h : Ranged s) (c : Instr) (he : exec c s = .next t) : Ranged t := by
  cases c
  case reset => cases he; exact Ranged.reset.congr
  case configReadEnd => exact h.configReadEnd he
  case directoryReadEnd => exact h.directoryReadEnd he
  case sampleInstant =>
    cases he
    split
    · exact h
    next hd =>
      rw [Bool.or_eq_true, not_or] at hd
      exact h.sampleInstant hd.1 hd.2
  case endOfData v => cases he; exact h.endData v
  case fadeStep v => exact h.fadeStep v he
  case duckStep v => exact h.duckStep v he
  case blockBoundary levels =>
    cases he
    split
    next hd => exact h.blockBoundary levels hd
    · exact h
  case playPress n | sendPress n => cases he; exact h.guarded _ (h.pressEvent n)
  case playRelease n | sendRelease n => cases he; exact h.guarded _ (h.releaseEvent n)
  case requestExpiry which => exact h.requestExpiry which he
  case deadAir o => cases he; exact h.latchDeadAir o
  case overloadTrip o => cases he; exact h.tripPair o
  case recoveryWaitEnd o => cases he; exact h.recoverPair o
  case attemptsForgiven o => cases he; exact h.setPair o _
  case joinWaitEnd => cases he; exact h.endJoinWait
  case holdUnitBoundary =>
    cases he
    split
    · exact h.holdUnitBoundary
    · exact h
  case penaltyEnd n => cases he; exact h.endPenalty n
  case duckEntryExpiry => cases he; exact h.withDucks _
  case readEnd => exact h.readEnd he
  case busIdle => exact h.busIdle he
  case frameBegin => exact h.frameBegin he
  case arbitrationLost => exact h.arbitrationLost he
  case bitError => exact h.bitError he
  case rxDiscard => exact h.rxDiscard he
  case rxUnappliedFrame | rxOwnNumberFrame => exact h.receiveRaw he
  case rxStartBit => exact h.rxStartBit he
  case ownClaimComplete | ownHeldComplete | ownStartComplete | ownEndComplete | ownHoldComplete | ownStatusComplete =>
    cases he; exact h.completeOwn _ _
  case release | stop | allStop | fire | arm | disarm => cases he; exact h.completeFrame _ _
  case claim | held | start | endFrame | hold | ask | status | rxFreshStatusOwnNumber => cases he; exact h.receiveFrame _ _

/-- Settles O6: by the command at the front of the queue, each of whose operations keeps the ranges. -/
theorem everyStepKeepsTheRanges : Obligations.EveryStepKeepsTheRanges := by
  intro s t h he
  unfold step at he
  split at he
  · cases he
    exact h
  next c rest _ =>
    have hr : Ranged { s with pending := rest } := h.congr
    exact hr.exec c he

end Sys2Proof.Machine
end

section
/-! PROOF. The station right after reset (R159). -/

namespace Sys2Proof.Machine

set_option Elab.async false

theorem queueLaw_nil : QueueLaw [] where
  size := Nat.zero_le _
  flight := Nat.zero_le _
  order := List.Pairwise.nil
  status := Nat.zero_le _
  startEnd := nofun
  hold := fun _ => Nat.zero_le _

theorem pairLaw_reset (c : StationConfig) : PairLaw c Pair.reset := ⟨Nat.zero_le _, nofun⟩

theorem lawful_reset : Lawful State.reset where
  queue := queueLaw_nil
  remote := Nat.zero_le _
  ducks := ⟨Nat.zero_le _, List.Pairwise.nil⟩
  foreign := nofun
  pgm := pairLaw_reset _
  floor := pairLaw_reset _
  loading := fun _ => ⟨rfl, rfl, rfl, rfl, rfl, rfl, rfl, rfl, rfl⟩

/-- Settles O7: each bound, law and range is met by the reset values. -/
theorem resetMeetsTheBounds : Obligations.ResetMeetsTheBounds :=
  ⟨lawful_reset, fun _ => nofun, Ranged.reset, rfl⟩

/-! ## The tables of records at reset -/

theorem reset_line (n : Fin 8) : State.reset.line n = Line.reset := Table.get_fill _ n

theorem reset_group (i : Fin 15) : State.reset.groups.get i = GroupView.reset GroupConfig.default := by
  unfold State.reset StationConfig.default
  rw [Table.get_map, Table.get_fill]

theorem reset_flag (f : Flag) : State.reset.flags.get f.place = { set := false, fresh := false } := Table.get_fill _ _

/-- The station after RESET: its lines, groups and flags are those of the reset state, whatever commands wait. -/
theorem execReset_tables (s : State) :
    ∃ t, exec .reset s = .next t ∧ t = { State.reset with pending := s.pending, choices := s.choices } ∧
      (∀ n, t.line n = Line.reset) ∧ (∀ i, t.groups.get i = GroupView.reset GroupConfig.default) ∧
      ∀ f, t.flags.get (Flag.place f) = { set := false, fresh := false } :=
  ⟨_, rfl, rfl, reset_line, reset_group, reset_flag⟩

/-- Settles O8: RESET leaves the reset values of every block, read table by table. -/
theorem resetValues : Obligations.ResetValues := by
  intro s
  obtain ⟨t, he, ht, hline, hgroup, hflag⟩ := execReset_tables s
  refine ⟨t, he, ?_⟩
  subst ht
  refine ⟨rfl, rfl, rfl, fun v => Table.get_fill _ v, rfl, rfl, rfl, rfl, fun n => ?_, rfl, rfl, fun i => ?_, rfl, fun o => ?_,
    rfl, rfl, rfl, rfl, rfl, fun f => ?_, rfl, rfl, rfl⟩
  · rw [hline]
    exact ⟨rfl, rfl, rfl, rfl⟩
  · rw [hgroup]
    exact ⟨rfl, rfl, rfl, rfl⟩
  · cases o <;> exact ⟨rfl, rfl, rfl, rfl, rfl, rfl, rfl, rfl⟩
  · unfold State.flag State.newMark
    rw [hflag]
    exact ⟨rfl, rfl⟩

end Sys2Proof.Machine
end

section
/-! PROOF. A block boundary samples the lines and ages the requests (BlockBoundarySamplesTheLines). -/

namespace Sys2Proof.Machine

set_option Elab.async false

/-! ## One line (R24 to R26, R34) -/

/-- The sample that a block boundary takes of line n under a configuration (R24, R25). -/
def StationConfig.sampleLine (c : StationConfig) (levels : Byte) (n : Fin 8) (l : Line) : Line :=
  l.sample (c.lines.get n) c.debounce (sampledActive (c.lines.get n) levels n.val)

variable (l : Line) (c : LineConfig) (d : Nat) (active : Bool)

/-- A sample touches the accepted level, the change count and the event only (R24, R25). -/
theorem Line.sample_frame :
    l.sample c d active =
      { l with
        accepted := (l.sample c d active).accepted
        changes := (l.sample c d active).changes
        event := (l.sample c d active).event } := by
  unfold Line.sample
  repeat' split
  all_goals rfl

theorem Line.sample_first (h : l.accepted = none) : l.sample c d active = { l with accepted := some active, changes := 0 } := by
  simp [Line.sample, h]

theorem Line.sample_same (h : l.accepted = some active) : l.sample c d active = { l with changes := 0 } := by
  simp [Line.sample, h]

theorem Line.sample_change (h : l.accepted = some (!active)) :
    l.sample c d active =
      if d ≤ l.changes + 1 then { l with accepted := some active, changes := 0, event := acceptedEvent c active }
      else { l with changes := l.changes + 1 } := by
  simp [Line.sample, h]

/-! ## All lines -/

variable {s : State} (levels : Byte)

/-- Samples of lines in an order, each line once: every one of them is sampled, and nothing else changes. -/
theorem inOrder_sampleLine (f : StationConfig → Fin 8 → Line → Line) (ns : List (Fin 8)) (hn : ns.Nodup) (s : State) :
    ∃ L, inOrder (fun n t => State.setLine t n (f t.cfg n (t.line n))) ns s = { s with lines := L } ∧
      ∀ m, L.get m = if m ∈ ns then f s.cfg m (s.line m) else s.line m := by
  induction ns generalizing s with
  | nil => exact ⟨s.lines, rfl, fun m => by simp [State.line]⟩
  | cons n rest ih =>
    rw [List.nodup_cons] at hn
    obtain ⟨L, he, hL⟩ := ih hn.2 (s.setLine n (f s.cfg n (s.line n)))
    refine ⟨L, he, fun m => ?_⟩
    rw [hL, State.line_setLine]
    by_cases hm : n = m
    · subst hm
      simp [hn.1]
    · simp [hm, Ne.symm hm]

theorem mem_slots (v : Fin 8) : v ∈ slots := by
  revert v
  decide

theorem State.sampleLines_eq :
    ∃ L, s.sampleLines levels = { s with lines := L } ∧ ∀ n, L.get n = s.cfg.sampleLine levels n (s.line n) := by
  obtain ⟨L, he, hL⟩ := inOrder_sampleLine (fun c n l => c.sampleLine levels n l) slots (by decide) s
  exact ⟨L, he, fun n => by rw [hL, if_pos (mem_slots n)]⟩

/-- A line as the aging at a block boundary leaves it (R34). -/
def State.ageLine (s : State) (l : Line) : Line :=
  { l with request := l.request.map fun r => if s.ages r then { r with age := r.age + 1 } else r }

theorem State.latchIf_eq (b : Bool) (f : Flag) : ∃ g, s.latchIf b f = { s with flags := g } := by
  unfold State.latchIf
  split
  · exact ⟨_, rfl⟩
  · exact ⟨s.flags, rfl⟩

theorem State.judgeBlock_eq :
    ∃ p q g, s.judgeBlock = { s with pgm := p, floor := q, monitoring := true, join := s.join.count, flags := g } := by
  unfold State.judgeBlock
  obtain ⟨g, hg⟩ := s.latchIf_eq (s.monitoring && s.pgm.isHot s.cfg) (hotFlag .pgm)
  rw [hg]
  obtain ⟨g', hg'⟩ := State.latchIf_eq (s := { s with flags := g }) (s.monitoring && s.floor.isHot s.cfg) (hotFlag .floor)
  rw [hg']
  exact ⟨_, _, g', rfl⟩

/-- A block boundary where nothing is due: every line is sampled, every request that ages is a block older, and OUT judges the block. -/
theorem State.blockBoundary_eq (hm : s.mode ≠ .loading) (hs : s.settled) :
    ∃ L p q g,
      s.blockBoundary levels =
        { s with
          lines := L
          remote := s.remote.map fun r => { r with age := r.age + 1 }
          tmb := s.tmb.countBlock
          pgm := p
          floor := q
          monitoring := true
          join := s.join.count
          flags := g } ∧
      ∀ n, L.get n = s.ageLine (s.cfg.sampleLine levels n (s.line n)) := by
  obtain ⟨L, he, hL⟩ := State.sampleLines_eq (s := { s with tmb := s.tmb.countBlock }) levels
  obtain ⟨p, q, g, hj⟩ := State.judgeBlock_eq (s := { s with tmb := s.tmb.countBlock, lines := L }.ageRequests)
  refine ⟨L.map s.ageLine, p, q, g, ?_, fun n => by rw [Table.get_map, hL]; rfl⟩
  unfold State.blockBoundary
  rw [hs]
  dsimp only
  rw [if_neg (by simpa [State.isLoading] using hm), he, hj]
  rfl

/-- Settles O25: by `State.blockBoundary_eq`, line by line along the cases of a sample. -/
theorem blockBoundarySamplesTheLines : Obligations.BlockBoundarySamplesTheLines := by
  intro levels s
  refine ⟨fun h => ?_, fun hm h hs => ?_, fun hm h hs => ?_⟩
  · exact congrArg Host.Outcome.next (if_neg (by rw [Timebase.blockDue_iff]; omega))
  · refine congrArg Host.Outcome.next ((if_pos (s.tmb.blockDue_iff.mpr h)).trans ?_)
    unfold State.blockBoundary
    rw [hs]
    exact if_pos (decide_eq_true hm)
  · obtain ⟨L, p, q, g, he, hL⟩ := State.blockBoundary_eq levels hm hs
    refine ⟨_, congrArg Host.Outcome.next ((if_pos (s.tmb.blockDue_iff.mpr h)).trans he), fun n => ?_, rfl, rfl,
      fun k hk => by simp [hk, JoinStage.count], rfl⟩
    intro l m active
    have hm : m = s.ageLine (l.sample (s.lineConfig n) s.cfg.debounce active) := hL n
    clear_value m active
    subst hm
    refine ⟨fun ha => ?_, fun ha => ?_, fun ha hd => ?_, fun ha hd => ?_, fun hr => ?_, fun r hr => ⟨fun hg => ?_, fun hl hg => ?_⟩,
      ?_⟩
    · rw [Line.sample_first _ _ _ _ ha]
      exact ⟨rfl, rfl, rfl⟩
    · rw [Line.sample_same _ _ _ _ ha]
      exact ⟨ha, rfl, rfl⟩
    · rw [Line.sample_change _ _ _ _ ha, if_neg (by omega)]
      exact ⟨rfl, rfl, rfl⟩
    · rw [Line.sample_change _ _ _ _ ha, if_pos hd]
      exact ⟨rfl, rfl, rfl⟩
    all_goals rw [Line.sample_frame]
    · simp [State.ageLine, hr]
    · have hages : s.ages r = true := by simpa [State.ages] using hg
      simp [State.ageLine, hr, hages]
    · have hages : s.ages r = false := by simp [State.ages, hl, hg]
      simp [State.ageLine, hr, hages]
    · exact ⟨rfl, rfl, rfl⟩

end Sys2Proof.Machine
end

section
/-! PROOF. A hold-unit boundary counts down penalties, holds and duck entries (HoldUnitBoundaryCountsDown). -/

namespace Sys2Proof.Machine

set_option Elab.async false

variable {s : State}

/-! ## Offering a HOLD (R67, R145 to R148) -/

/-- An entry is put where its kind and its coming last give it (R144). -/
theorem placeEntry_placed (e : Entry) (q : List Entry) : Placed q (placeEntry e q) e := by
  induction q with
  | nil => exact ⟨[], [], rfl, rfl, nofun, nofun⟩
  | cons x rest ih =>
    unfold placeEntry
    split
    next hk => exact ⟨[], x :: rest, rfl, rfl, nofun, by simpa using hk⟩
    next hk =>
      obtain ⟨a, b, rfl, he, ha, hb⟩ := ih
      refine ⟨x :: a, b, rfl, by rw [he]; rfl, ?_, hb⟩
      rintro y (_ | ⟨_, hy⟩)
      · omega
      · exact ha y hy

/-- A frame is placed where it belongs while the queue has room. -/
theorem place_of_room (f : Frame) (key : Nat) (h : s.hasRoom) :
    s.place f key = ({ s with queue := placeEntry (newEntry f key) s.queue }, .placed) := if_pos h

/-- Eviction reaches only a frame of a larger kind code than the new one's (R148). -/
theorem kind_of_victimOf {k : Nat} {q : List Entry} {x : Entry} (h : victimOf k q = some x) : k < x.kind := by
  unfold victimOf at h
  split at h
  · split at h
    · cases h
      assumption
    · cases h
  · cases h

/-- The eviction of a frame that comes behind the STARTs has no owner's part (R149). -/
theorem evicted_of_kind {f : Frame} (h : 3 < f.kind) : s.evicted f = s := by
  cases f
  case start => exact absurd h (by decide : ¬3 < 3)
  all_goals rfl

/-- The offer of a HOLD touches the queue and the flags only: it evicts no START. -/
theorem offer_hold_eq (tag hold : Byte) : ∃ q g, s.offer (.hold tag hold) = { s with queue := q, flags := g } := by
  unfold State.offer State.offerKey
  dsimp only
  split
  · exact ⟨_, s.flags, rfl⟩
  · rcases place_cases (s := s) (.hold tag hold) s.cfg.number with ⟨_, e⟩ | ⟨_, x, hx, e⟩ | ⟨_, _, e⟩ <;> rw [e]
    · exact ⟨_, s.flags, rfl⟩
    · have hk : 5 < x.frame.kind := kind_of_victimOf hx
      rw [evicted_of_kind (by omega)]
      exact ⟨_, _, rfl⟩
    · exact ⟨s.queue, _, rfl⟩

theorem refreshHold_eq (v : Fin 8) : ∃ q g, s.refreshHold v = { s with queue := q, flags := g } := by
  unfold State.refreshHold
  split
  · split
    · exact offer_hold_eq _ _
    · exact ⟨s.queue, s.flags, rfl⟩
  · exact ⟨s.queue, s.flags, rfl⟩

/-- Testing voices for a HOLD touches the queue, the flags and the count of free choices only. -/
theorem visit_refreshHold_eq (l : List (Fin 8)) :
    ∃ q g n, visit (fun v u => State.refreshHold u v) l s = { s with queue := q, flags := g, choices := n } := by
  refine visit_keeps (P := fun t => ∃ q g n, t = { s with queue := q, flags := g, choices := n }) ?_ ?_ l
    ⟨s.queue, s.flags, s.choices, rfl⟩
  · rintro v t ⟨q, g, n, rfl⟩
    obtain ⟨q', g', h⟩ := refreshHold_eq (s := { s with queue := q, flags := g, choices := n }) v
    exact ⟨q', g', n, h⟩
  · rintro t n ⟨q, g, _, rfl⟩
    exact ⟨q, g, n, rfl⟩

/-! ## What is counted down, and the test that follows (R29, R67) -/

/-- The voice with its H counted down (R67). -/
def Voice.countHold (w : Voice) : Voice := { w with announce := w.announce.countHold }

/-- The station as a hold-unit boundary tests its voices: the hold unit is counted, and every penalty and every H has fallen. -/
def State.countedDown (s : State) : State :=
  { s with
    tmb := { s.tmb with blocks := 0 }
    lines := s.lines.map Line.countPenalty
    voices := s.voices.map Voice.countHold }

/-- The hold of a voice whose remaining time is as given: at most 255, and 255 where it is unbounded (R67). -/
def holdOf : Option Nat → Nat
  | some r => min r 255
  | none => 255

/-- The test of R67 on a voice whose H has just fallen. -/
theorem Voice.holdWanted_countHold (w : Voice) (q : Cue) (k : Nat) :
    w.countHold.holdWanted q = some k ↔
      ∃ h, w.announce = .announced h ∧ h - 1 ≤ 50 ∧ (∀ r, w.remainingTime q = some r → h - 1 < r) ∧
        k = holdOf (w.remainingTime q) := by
  have hr : w.countHold.remainingTime q = w.remainingTime q := rfl
  unfold Voice.holdWanted
  rw [hr]
  cases ha : w.announce with
  | localOnly | queued => simp [Voice.countHold, ha, Announce.countHold]
  | announced h =>
    cases w.remainingTime q <;> simp [Voice.countHold, ha, Announce.countHold, Config.refreshAt, holdOf, eq_comm]

/-- A voice asks for a HOLD at the boundary: it is ANNOUNCED with H = h before, the station is in RUN, H falls to 50 or less and below its
remaining time, and no HOLD for its tag is in the queue (R67). -/
def State.wantsHoldAt (s : State) (v : Fin 8) (h : Nat) : Prop :=
  (s.voice v).announce = .announced h ∧ s.mode = .run ∧ h - 1 ≤ 50 ∧
    (∀ r, (s.voice v).remainingTime (s.cueOf (s.voice v)) = some r → h - 1 < r) ∧
    s.hasFrame (Frame.isHoldOf (s.tag v)) = false

theorem State.countedDown_voice (v : Fin 8) : s.countedDown.voice v = (s.voice v).countHold := Table.get_map _ _ v

theorem State.countedDown_tag (v : Fin 8) : s.countedDown.tag v = s.tag v := by
  unfold State.tag
  rw [State.countedDown_voice]
  rfl

theorem State.countedDown_holdWanted (v : Fin 8) :
    (s.countedDown.voice v).holdWanted (s.countedDown.cueOf (s.countedDown.voice v)) =
      (s.voice v).countHold.holdWanted (s.cueOf (s.voice v)) := by
  rw [State.countedDown_voice]
  rfl

theorem State.countedDown_wantsHold (v : Fin 8) : s.countedDown.wantsHold v = true ↔ ∃ h, s.wantsHoldAt v h := by
  have hrun : s.countedDown.isRun = true ↔ s.mode = .run := decide_eq_true_iff
  have hq : s.countedDown.hasFrame (Frame.isHoldOf (s.tag v)) = s.hasFrame (Frame.isHoldOf (s.tag v)) := rfl
  unfold State.wantsHold State.wantsHoldAt
  rw [State.countedDown_holdWanted, State.countedDown_tag, hq, Bool.and_eq_true, Bool.and_eq_true, hrun, Option.isSome_iff_exists,
    Bool.not_eq_true']
  simp only [Voice.holdWanted_countHold]
  constructor
  · rintro ⟨⟨⟨_, h, ha, h50, hr, _⟩, hm⟩, hf⟩
    exact ⟨h, ha, hm, h50, hr, hf⟩
  · rintro ⟨h, ha, hm, h50, hr, hf⟩
    exact ⟨⟨⟨_, h, ha, h50, hr, rfl⟩, hm⟩, hf⟩

/-- A voice that asks for a HOLD offers one of its remaining time. -/
theorem State.countedDown_refreshHold {v : Fin 8} {h : Nat} (hw : s.wantsHoldAt v h) :
    s.countedDown.refreshHold v =
      s.countedDown.offer
        (.hold (BitVec.ofNat 8 (s.tag v))
          (BitVec.ofNat 8 (holdOf ((s.voice v).remainingTime (s.cueOf (s.voice v)))))) := by
  obtain ⟨ha, hm, h50, hr, hf⟩ := hw
  have hwanted := ((s.voice v).holdWanted_countHold (s.cueOf (s.voice v)) _).mpr ⟨h, ha, h50, hr, rfl⟩
  have hrun : s.countedDown.isRun = true := decide_eq_true hm
  have hq : s.countedDown.hasFrame (Frame.isHoldOf (s.tag v)) = false := hf
  unfold State.refreshHold
  rw [State.countedDown_holdWanted, hwanted]
  dsimp only
  rw [State.countedDown_tag, hrun, hq]
  rfl

/-- The HOLD of a tag that has neither HOLD nor START waiting is placed while there is room (R145, R147). -/
theorem offer_hold_placed (tag hold : Byte) (hh : s.hasFrame (Frame.isHoldOf tag.toNat) = false)
    (hs : s.hasWaiting (Frame.isStartOf tag.toNat) = false) (hroom : s.hasRoom) :
    Placed s.queue (s.offer (.hold tag hold)).queue (newEntry (.hold tag hold) s.cfg.number) := by
  have hnone : ¬s.hasWaiting (fun x => x.isHoldOf tag.toNat || x.isStartOf tag.toNat) = true := by
    simp only [State.hasFrame, State.hasWaiting, List.any_eq_false, List.any_eq_true, not_exists, not_and, Bool.and_eq_true,
      Bool.or_eq_true, Bool.not_eq_true] at hh hs ⊢
    rintro e he hw (hf | hf)
    · rw [hh e he] at hf
      cases hf
    · rw [hs e he hw] at hf
      cases hf
  unfold State.offer State.offerKey
  dsimp only
  rw [if_neg hnone, place_of_room _ _ hroom]
  exact placeEntry_placed _ _

/-! ## The boundary -/

/-- A hold-unit boundary where nothing is due, out of LOADING. -/
theorem State.holdUnitBoundary_eq (hm : s.mode ≠ .loading) (hs : s.settled) :
    s.holdUnitBoundary =
      (visit (fun v u => State.refreshHold u v) (slots.filter s.countedDown.wantsHold) s.countedDown).countDucks := by
  unfold State.holdUnitBoundary
  rw [hs]
  exact if_neg (by simpa [State.isLoading] using hm)

/-- The slots that a test picks, where it picks one alone. -/
theorem filter_slots_eq_singleton {p : Fin 8 → Bool} {v : Fin 8} (hv : p v = true) (hu : ∀ u, p u = true → u = v) :
    slots.filter p = [v] := by
  have hp : slots.filter p = slots.filter fun u => decide (u = v) := by
    apply List.filter_congr
    intro u _
    rw [Bool.eq_iff_iff, decide_eq_true_iff]
    exact ⟨hu u, fun e => e ▸ hv⟩
  rw [hp]
  clear hp hu hv
  revert v
  decide

theorem countHold_of_announced {w : Voice} {h : Nat} (ha : w.announce = .announced h) :
    w.countHold = { w with announce := .announced (h - 1) } := by
  simp [Voice.countHold, ha, Announce.countHold]

theorem countHold_of_not_announced {w : Voice} (ha : ∀ h, w.announce ≠ .announced h) : w.countHold = w := by
  have he : w.announce.countHold = w.announce := by
    cases hw : w.announce with
    | announced h => exact absurd hw (ha h)
    | localOnly | queued => rfl
  rw [Voice.countHold, he]

/-- Settles O40: what is counted down stands in `State.countedDown`, and the tests that follow touch the queue and the flags only. -/
theorem holdUnitBoundaryCountsDown : Obligations.HoldUnitBoundaryCountsDown := by
  intro s
  refine ⟨fun h => ?_, fun hm h hs => ?_, fun hm h hs => ?_⟩
  · exact congrArg Host.Outcome.next (if_neg (by rw [Timebase.unitDue_iff]; omega))
  · refine congrArg Host.Outcome.next ((if_pos (s.tmb.unitDue_iff.mpr h)).trans ?_)
    unfold State.holdUnitBoundary
    rw [hs]
    exact if_pos (decide_eq_true hm)
  · have he := State.holdUnitBoundary_eq hm hs
    obtain ⟨q, g, n, hv⟩ := visit_refreshHold_eq (s := s.countedDown) (slots.filter s.countedDown.wantsHold)
    refine ⟨_, congrArg Host.Outcome.next ((if_pos (s.tmb.unitDue_iff.mpr h)).trans (he.trans (congrArg State.countDucks hv))),
      fun n => Table.get_map _ _ n, rfl, fun v h ha => ?_, fun v ha => ?_, rfl, rfl, rfl, rfl, rfl, fun hno => ?_,
      fun v h hw honly hroom hstart _ => ?_⟩
    · exact (State.countedDown_voice v).trans (countHold_of_announced ha)
    · exact (State.countedDown_voice v).trans (countHold_of_not_announced ha)
    · have hnil : slots.filter s.countedDown.wantsHold = [] := by
        rw [List.filter_eq_nil_iff]
        intro v _ hp
        obtain ⟨h, hw⟩ := (State.countedDown_wantsHold v).mp hp
        exact hno v h hw
      rw [hnil] at hv
      exact ⟨(congrArg State.queue hv).symm, (congrArg State.flags hv).symm⟩
    · have hone : slots.filter s.countedDown.wantsHold = [v] := by
        refine filter_slots_eq_singleton ((State.countedDown_wantsHold v).mpr ⟨h, hw⟩) fun u hu => ?_
        obtain ⟨k, hk⟩ := (State.countedDown_wantsHold u).mp hu
        exact honly u k hk
      have hq : q = (s.countedDown.refreshHold v).queue := by
        rw [hone] at hv
        exact (congrArg State.queue hv).symm
      have htag : (BitVec.ofNat 8 (s.tag v)).toNat = s.tag v := by simp [Nat.mod_eq_of_lt (s.tag_lt v)]
      have hp := offer_hold_placed (s := s.countedDown) (BitVec.ofNat 8 (s.tag v))
        (BitVec.ofNat 8 (holdOf ((s.voice v).remainingTime (s.cueOf (s.voice v)))))
        (by rw [htag]; exact hw.2.2.2.2) (by rw [htag]; exact hstart) hroom
      rw [← State.countedDown_refreshHold hw, ← hq] at hp
      exact hp

end Sys2Proof.Machine
end

section
/-! PROOF. A sample instant plays and steps every voice and mixes and measures both pairs (SampleInstantPlaysEveryVoice). -/

namespace Sys2Proof.Machine

set_option Elab.async false

variable {s : State}

/-! ## The parts of the instant -/

/-- The error flag may end: only the queue, the wire and the count of free choices may change (R140; log entry 34). -/
theorem State.flagMayEnd_eq :
    ∃ q x n, s.flagMayEnd = { s with queue := q, tx := x, choices := n } ∧ QueueOverFlag s q := by
  obtain ⟨-, e⟩ | ⟨hd, e | e⟩ := s.flagMayEnd_cases
  · exact ⟨s.queue, s.tx, s.choices, e, .inl rfl⟩
  · exact ⟨s.queue, s.tx, _, e, .inl rfl⟩
  · obtain ⟨d, hmem, hdrop⟩ := List.any_eq_true.mp hd
    obtain ⟨hfly, hatt⟩ := Bool.and_eq_true_iff.mp hdrop
    refine ⟨s.queue.filter fun e => !e.dropped, .idle, s.choices + 1, ?_, .inr ⟨⟨d, hmem, hfly, of_decide_eq_true hatt⟩, rfl⟩⟩
    rw [e]
    exact if_pos hd

/-- The arbiter touches the link and the fetch offset of the voice it grants, which rises (R15, R16). -/
theorem State.arbitrate_eq :
    ∃ vs k, s.arbitrate = { s with voices := vs, link := k } ∧
      ∀ v, ∃ f, (s.voice v).fetchOffset ≤ f ∧ vs.get v = { s.voice v with fetchOffset := f } := by
  have hsame : ∀ v, ∃ f, (s.voice v).fetchOffset ≤ f ∧ s.voices.get v = { s.voice v with fetchOffset := f } :=
    fun v => ⟨_, Nat.le_refl _, rfl⟩
  unfold State.arbitrate
  split
  · exact ⟨s.voices, s.link, rfl, hsame⟩
  · split
    next u _ =>
      refine ⟨_, _, rfl, fun v => ?_⟩
      rw [State.setVoice_voices, Table.get_set]
      split
      next h =>
        subst h
        exact ⟨_, Nat.le_add_right _ _, rfl⟩
      · exact hsame v
    · exact ⟨s.voices, s.link, rfl, hsame⟩

/-- Where no V has come to 0, none is freed (R97). -/
theorem State.freeRunOut_of_none (h : ∀ v, s.runOut v = false) : s.freeRunOut = s := by
  unfold State.freeRunOut
  rw [List.filter_eq_nil_iff.mpr fun v _ => by simp [h v]]
  rfl

/-- Voice v after a sample instant, before the arbiter grants anything (R13, R94 to R101). -/
def State.ticked (s : State) (v : Fin 8) : Voice := (s.voice v).tick (s.cueOf (s.voice v)) s.cfg (duckTarget s v)

theorem State.get_tickVoices (v : Fin 8) : s.tickVoices.get v = s.ticked v := by
  unfold State.tickVoices
  rw [Table.get_mapIdx, Fin.ofNat_val_eq_self]
  rfl

/-- What the voices bring to the mix (R112, R113). -/
def State.mix (s : State) : List Playing := slots.filterMap s.playing

/-- Pair o after the instant (R115 to R119, R121). -/
def State.mixed (s : State) (o : OutPair) : Pair := (s.pair o).instant s.mix o (s.cfg.trim o) s.monitoring

theorem State.mixInstant_eq :
    ∃ g, s.mixInstant = { s with voices := s.tickVoices, pgm := s.mixed .pgm, floor := s.mixed .floor, flags := g } ∧
      (s.anyUnderrun = true → (g.get Flag.underrun.place).set = true) := by
  unfold State.mixInstant State.latchIf
  dsimp only
  split
  · exact ⟨_, rfl, fun _ => by rw [Table.get_set_self]⟩
  next h => exact ⟨s.flags, rfl, fun hu => absurd hu h⟩

/-- A sample instant where nothing is due and no V comes to 0, out of LOADING. -/
theorem State.sampleInstant_eq (hm : s.mode ≠ .loading) (hs : s.settled)
    (hrun : ∀ v, (s.ticked v).state = .releasing → (s.ticked v).rate = some .tail ∨ (s.ticked v).level ≠ 0) :
    ∃ vs q x n g k,
      s.sampleInstant =
        { s with
          tmb := s.tmb.countSample
          voices := vs
          pgm := s.mixed .pgm
          floor := s.mixed .floor
          queue := q
          tx := x
          choices := n
          flags := g
          link := k } ∧
      QueueOverFlag s q ∧ (s.anyUnderrun = true → (g.get Flag.underrun.place).set = true) ∧
      ∀ v, ∃ f, (s.ticked v).fetchOffset ≤ f ∧ vs.get v = { s.ticked v with fetchOffset := f } := by
  obtain ⟨q, x, n, hq, hflag⟩ := State.flagMayEnd_eq (s := { s with tmb := s.tmb.countSample })
  obtain ⟨g, hg, hunder⟩ := State.mixInstant_eq (s := { s with tmb := s.tmb.countSample, queue := q, tx := x, choices := n })
  have hget := State.get_tickVoices (s := { s with tmb := s.tmb.countSample, queue := q, tx := x, choices := n })
  obtain ⟨vs, k, ha, hvs⟩ := State.arbitrate_eq
    (s := { s with
      tmb := s.tmb.countSample, queue := q, tx := x, choices := n, flags := g, pgm := s.mixed .pgm, floor := s.mixed .floor
      voices := { s with tmb := s.tmb.countSample, queue := q, tx := x, choices := n }.tickVoices })
  have hvoice : ∀ v, ∃ f, (s.ticked v).fetchOffset ≤ f ∧ vs.get v = { s.ticked v with fetchOffset := f } := by
    intro v
    have h := hvs v
    unfold State.voice at h
    rw [hget] at h
    exact h
  refine ⟨vs, q, x, n, g, k, ?_, hflag, hunder, hvoice⟩
  unfold State.sampleInstant
  rw [hs]
  dsimp only
  rw [if_neg (by simpa [State.isLoading] using hm), hq, hg]
  refine (congrArg State.freeRunOut ha).trans (State.freeRunOut_of_none fun v => ?_)
  obtain ⟨f, -, hf⟩ := hvoice v
  have hv : (s.ticked v).state = .releasing → (s.ticked v).rate = some .tail ∨ (s.ticked v).level ≠ 0 := hrun v
  unfold State.runOut State.voice
  dsimp only
  rw [hf]
  simp only [Bool.and_eq_false_iff, decide_eq_false_iff_not, not_not]
  by_cases hst : (s.ticked v).state = .releasing
  · rcases hv hst with hr | hl
    · exact .inl (.inr hr)
    · exact .inr hl
  · exact .inl (.inl hst)

/-! ## The mix (R110, R113 to R119) -/

/-- The sum over the voices that play is the sum over all slots, a slot that does not play bringing 0. -/
theorem sum_map_filterMap {α β : Type} (f : α → Option β) (g : β → Int) (l : List α) :
    ((l.filterMap f).map g).sum = (l.map fun a => ((f a).map g).getD 0).sum := by
  induction l with
  | nil => rfl
  | cons a rest ih =>
    cases h : f a with
    | none => simp [h, ih]
    | some b => simp [h, ih]

theorem effectiveCode_eq (level duck trim : Nat) :
    effectiveCode level duck trim = if duck + (255 - trim) ≤ level then level - (duck + (255 - trim)) else 0 := by
  unfold effectiveCode
  split <;> omega

theorem Voice.playsNow_eq {w : Voice} {q : Cue} (h : w.atEnd q = false) : w.playsNow q = w.state.plays := by
  simp [Voice.playsNow, h]

theorem State.anyUnderrun_of_empty {v : Fin 8} (hp : (s.voice v).playsNow (s.cueOf (s.voice v)) = true)
    (hb : (s.voice v).buffer = []) : s.anyUnderrun = true :=
  List.any_eq_true.mpr ⟨v, mem_slots v, by simp [Voice.underruns, hp, hb]⟩

/-- The sample that a voice plays on one side, 0 at an underrun (R21, R114). -/
def Voice.playedSample (w : Voice) (side : SampleFrame → Int) : Int :=
  match w.buffer with
  | f :: _ => side f
  | [] => 0

/-- What slot v brings to one channel of pair o: its sample times the gain of its V and D after stepping (R110 to R113). -/
theorem State.playing_product (o : OutPair) (side : SampleFrame → Int) {v : Fin 8}
    (hend : (s.voice v).atEnd (s.cueOf (s.voice v)) = false) :
    ((s.playing v).map fun p => p.product o (s.cfg.trim o) side).getD 0 =
      if (s.voice v).state.plays && (s.cueOf (s.voice v)).route.has o then
        (s.voice v).playedSample side * (gain (effectiveCode (s.ticked v).level (s.ticked v).duck (s.cfg.trim o)) : Int)
      else 0 := by
  unfold State.playing
  dsimp only
  rw [Voice.playsNow_eq hend]
  cases (s.voice v).state.plays
  · rfl
  · cases hr : (s.cueOf (s.voice v)).route.has o
    · simp [Playing.product, hr]
    · cases hb : (s.voice v).buffer <;>
        simp [Playing.product, Playing.gainOn, hr, hb, Voice.playedSample, State.ticked]

theorem State.channelSum_mix (o : OutPair) (side : SampleFrame → Int)
    (hend : ∀ v, (s.voice v).atEnd (s.cueOf (s.voice v)) = false) :
    channelSum s.mix o (s.cfg.trim o) side =
      (slots.map fun v =>
        if (s.voice v).state.plays && (s.cueOf (s.voice v)).route.has o then
          (s.voice v).playedSample side * (gain (effectiveCode (s.ticked v).level (s.ticked v).duck (s.cfg.trim o)) : Int)
        else 0).sum := by
  unfold channelSum State.mix
  rw [sum_map_filterMap]
  congr 1
  exact List.map_congr_left fun v _ => State.playing_product o side (hend v)

/-- A voice of the pair sounds in the mix exactly where one is SOUNDING (R121). -/
theorem State.any_sounding_mix (o : OutPair) (hend : ∀ v, (s.voice v).atEnd (s.cueOf (s.voice v)) = false) :
    (s.mix.any fun p => p.sounding && p.route.has o) = true ↔
      ∃ v, (s.voice v).state = .sounding ∧ (s.cueOf (s.voice v)).route.has o = true := by
  have hplaying : ∀ v p, s.playing v = some p →
      p.sounding = decide ((s.voice v).state = .sounding) ∧ p.route = (s.cueOf (s.voice v)).route := by
    intro v p h
    unfold State.playing at h
    dsimp only at h
    split at h
    · cases h
      exact ⟨rfl, rfl⟩
    · cases h
  unfold State.mix
  rw [List.any_eq_true]
  constructor
  · rintro ⟨p, hp, hs⟩
    obtain ⟨v, -, hv⟩ := List.mem_filterMap.mp hp
    obtain ⟨e1, e2⟩ := hplaying v p hv
    rw [e1, e2, Bool.and_eq_true, decide_eq_true_iff] at hs
    exact ⟨v, hs⟩
  · rintro ⟨v, hs, hr⟩
    have hnow : (s.voice v).playsNow (s.cueOf (s.voice v)) = true := by rw [Voice.playsNow_eq (hend v), hs]; rfl
    obtain ⟨p, hp⟩ : ∃ p, s.playing v = some p := ⟨_, if_pos hnow⟩
    obtain ⟨e1, e2⟩ := hplaying v p hp
    refine ⟨p, List.mem_filterMap.mpr ⟨v, mem_slots v, hp⟩, ?_⟩
    rw [e1, e2, hr, hs]
    rfl

/-! ## D (R101) -/

/-- One code toward a target comes to it, or leaves the direction as it was. -/
theorem directionOf_toward (x target : Nat) :
    directionOf (toward x target) target = if toward x target = target then .atRest else directionOf x target := by
  unfold toward directionOf
  grind

/-- D after a sample instant (R101), from where it stood before a DUCK_STEP of that instant (log entry 7). -/
theorem Voice.tick_moves_duck (w : Voice) (q : Cue) (c : StationConfig) (d : Nat) (ha : w.state.active = true) :
    let u := w.tick q c d
    let b := w.beforeDuckStep
    let dir := directionOf b.duck d
    let count := if dir = b.dDir then b.dCount else 0
    let k := if b.duck < d then c.attack else c.release
    (b.duck = d → u.duck = d ∧ u.dDir = .atRest ∧ u.dCount = count) ∧
    (b.duck ≠ d → k = 0 → u.duck = d ∧ u.dDir = .atRest ∧ (dir ≠ b.dDir → u.dCount = 0)) ∧
    (b.duck ≠ d → k ≠ 0 → count + 1 < 2 ^ (k + 2) → u.duck = b.duck ∧ u.dDir = dir ∧ u.dCount = count + 1) ∧
    (b.duck ≠ d → k ≠ 0 → 2 ^ (k + 2) ≤ count + 1 →
      u.dCount = 0 ∧ (b.duck < d → u.duck = b.duck + 1) ∧ (d < b.duck → u.duck = b.duck - 1) ∧
        u.dDir = if u.duck = d then .atRest else dir) := by
  obtain ⟨x, ⟨hd, hc, hdir⟩, ed, ec, edir⟩ := w.tick_duck q c d ha
  have hx := x.stepD_moves c d
  dsimp only at hx ⊢
  rw [← ed, ← ec, ← edir, hd, hc, hdir] at hx
  obtain ⟨hrest, hzero, hcount, hmove⟩ := hx
  refine ⟨hrest, fun hne h0 => ?_, hcount, fun hne h0 hle => ?_⟩
  · obtain ⟨h1, h2, h3⟩ := hzero hne h0
    exact ⟨h1, h2, fun _ => h3⟩
  · obtain ⟨h1, h2, h3⟩ := hmove hne h0 hle
    refine ⟨h3, fun hlt => ?_, fun hlt => ?_, ?_⟩
    · rw [h1, toward, if_pos hlt]
    · rw [h1, toward, if_neg (by omega), if_pos hlt]
    · rw [h2, h1, directionOf_toward]

/-- Settles O14: `State.sampleInstant_eq` gives the instant, `Voice.tick_frame` and `Voice.tick_moves_duck` its voices,
`State.channelSum_mix` its sums. -/
theorem sampleInstantPlaysEveryVoice : Obligations.SampleInstantPlaysEveryVoice := by
  intro s
  have hdue : (s.tmb.blockDue || s.tmb.unitDue) = true ↔ 48 ≤ s.tmb.samples ∨ 10 ≤ s.tmb.blocks := by
    rw [Bool.or_eq_true, Timebase.blockDue_iff, Timebase.unitDue_iff]
  refine ⟨fun h => ?_, fun hm hsm hbl hs => ?_, fun hm hsm hbl hs => ?_⟩
  · exact congrArg Host.Outcome.next (if_pos (hdue.mpr h))
  · refine congrArg Host.Outcome.next ((if_neg (by rw [hdue]; omega)).trans ?_)
    unfold State.sampleInstant
    rw [hs]
    exact if_pos (decide_eq_true hm)
  · intro level hend hrun
    have hticked : ∀ v, s.ticked v = _ := fun v => (s.voice v).tick_frame (s.cueOf (s.voice v)) s.cfg (duckTarget s v)
    obtain ⟨vs, q, x, n, g, k, he, hq, hunder, hvs⟩ := State.sampleInstant_eq hm hs fun v => by
      rw [hticked v]
      exact hrun v
    refine ⟨_, congrArg Host.Outcome.next ((if_neg (by rw [hdue]; omega)).trans he), fun v => ?_, fun o => ?_, rfl, rfl, rfl, rfl, rfl,
      rfl, rfl, hq, rfl, rfl, rfl, rfl⟩
    · obtain ⟨f, hf, hv⟩ := hvs v
      have hnow := Voice.playsNow_eq (hend v)
      intro w u target b dir count k
      have hu : u = { s.ticked v with fetchOffset := f } := hv
      clear_value u
      subst hu
      refine ⟨fun hp => ?_, fun hp hb => ⟨hunder ?_, ?_⟩, fun hp => ?_, ?_, fun ha => Voice.tick_moves_duck _ _ _ _ ha, ?_, ?_⟩
      · rw [hticked v, if_pos (hnow.trans hp), if_pos (hnow.trans hp)]
        exact ⟨rfl, rfl⟩
      · exact State.anyUnderrun_of_empty (hnow.trans hp) hb
      · exact Nat.le_trans (Voice.tick_fetchOffset _ _ _ _ (hnow.trans hp) hb) hf
      · rw [hticked v, hnow, hp]
        exact ⟨rfl, rfl⟩
      · rw [hticked v]
        exact ⟨rfl, rfl, rfl⟩
      · rw [hticked v]
      · rw [hticked v]
        exact ⟨rfl, rfl, rfl, rfl, rfl, rfl, rfl, rfl, rfl⟩
    · intro p x product left right
      have hx : x = s.mixed o := by cases o <;> rfl
      have hproduct : ∀ side v, product side v =
          if (s.voice v).state.plays && (s.cueOf (s.voice v)).route.has o then
            (s.voice v).playedSample side * (gain (effectiveCode (s.ticked v).level (s.ticked v).duck (s.cfg.trim o)) : Int)
          else 0 := by
        intro side v
        obtain ⟨f, -, hv⟩ := hvs v
        have hlevel : (vs.get v).level = (s.ticked v).level := by rw [hv]
        have hduck : (vs.get v).duck = (s.ticked v).duck := by rw [hv]
        rw [effectiveCode_eq, ← hlevel, ← hduck]
        rfl
      have hsum : ∀ side, (slots.map (product side)).sum = channelSum s.mix o (s.cfg.trim o) side := fun side => by
        rw [State.channelSum_mix o side hend, funext (hproduct side)]
      clear_value product x
      subst hx
      refine ⟨(hsum _).symm, (hsum _).symm, rfl, rfl, rfl, rfl, ?_, ?_, rfl, rfl, rfl, rfl, rfl, rfl⟩
      · exact (Bool.and_eq_true_iff).trans (and_congr_right fun _ => decide_eq_true_iff)
      · exact (Bool.and_eq_true_iff).trans (and_congr_right fun _ => State.any_sounding_mix o hend)

end Sys2Proof.Machine
end

section
/-! PROOF. Out of LOADING the mode and the settings stay until the next reset (SettingsFixedOutsideLoading). -/

namespace Sys2Proof.Machine

set_option Elab.async false

/-- The station is out of LOADING, with the settings and the cue table of s. -/
structure StaysOut (s t : State) : Prop where
  mode : t.mode ≠ .loading
  settings : SameSettings s t

variable {s t : State}

theorem StaysOut.of_mode (h : s.mode ≠ .loading) : StaysOut s s := ⟨h, rfl, rfl, rfl, rfl⟩

/-- What keeps the settings, and does not enter LOADING, stays out. -/
theorem StaysOut.step {u : State} (h : StaysOut s t) (mode : u.mode ≠ .loading) (cfg : u.cfg = t.cfg := by rfl)
    (configDefaults : u.configDefaults = t.configDefaults := by rfl) (badRecords : u.badRecords = t.badRecords := by rfl)
    (cues : u.cues = t.cues := by rfl) : StaysOut s u :=
  ⟨mode, cfg.trans h.settings.cfg, configDefaults.trans h.settings.configDefaults, badRecords.trans h.settings.badRecords,
    cues.trans h.settings.cues⟩

/-- A change of anything but the mode and the settings stays out. -/
theorem StaysOut.congr {u : State} (h : StaysOut s t) (mode : u.mode = t.mode := by rfl) (cfg : u.cfg = t.cfg := by rfl)
    (configDefaults : u.configDefaults = t.configDefaults := by rfl) (badRecords : u.badRecords = t.badRecords := by rfl)
    (cues : u.cues = t.cues := by rfl) : StaysOut s u :=
  h.step (mode ▸ h.mode) cfg configDefaults badRecords cues

theorem StaysOut.of_kept {u : State} (h : StaysOut s t) (k : Kept t u) : StaysOut s u :=
  h.congr k.mode k.cfg k.configDefaults k.badRecords k.cues

/-- Serving, releasing and freeing stay out of LOADING. -/
theorem staysOut_stable (s : State) : Stable (StaysOut s) where
  voices := fun _ h => h.congr
  lines := fun _ h => h.congr
  groups := fun _ h => h.congr
  releasing := fun _ h => h.congr
  link := fun _ h => h.congr
  owedEnd := fun _ h => h.congr
  outcomes := fun _ h => h.congr
  pointer := fun _ h => h.congr
  passesDue := fun _ h => h.congr
  choices := fun _ h => h.congr
  startCounter := fun _ h => h.congr
  remote := fun _ h _ => h.congr
  flags := fun _ h => h.congr
  takeOut := fun _ h => h.congr
  offer := fun f k h _ _ => h.of_kept (offerKey_kept _ f k)

/-! ## Output pairs, the boundaries and what they made due -/

theorem StaysOut.setPair (h : StaysOut s t) (o : OutPair) (p : Pair) : StaysOut s (t.setPair o p) := by
  cases o <;> exact h.congr

theorem StaysOut.latchDeadAir (h : StaysOut s t) (o : OutPair) : StaysOut s (t.latchDeadAir o) :=
  (staysOut_stable s).latchDeadAir (fun o p h => h.setPair o p) o h

theorem StaysOut.tripPair (h : StaysOut s t) (o : OutPair) : StaysOut s (t.tripPair o) :=
  (staysOut_stable s).tripPair (fun o p h => h.setPair o p) o h

theorem StaysOut.recoverPair (h : StaysOut s t) (o : OutPair) : StaysOut s (t.recoverPair o) := by
  unfold State.recoverPair
  split
  · exact h.setPair o _
  · exact h

/-- The end of the join wait enters RUN. -/
theorem StaysOut.toRun (h : StaysOut s t) : StaysOut s { t with mode := .run, join := .done } := h.step (by simp)

theorem StaysOut.endJoinWait (h : StaysOut s t) : StaysOut s t.endJoinWait := by
  unfold State.endJoinWait
  split
  · exact h.toRun
  · exact h

theorem StaysOut.settle (h : StaysOut s t) : StaysOut s t.settle :=
  (staysOut_stable s).settle (fun o p h => h.setPair o p) (fun h => h.toRun) (fun _ h => h.congr) h

theorem StaysOut.dropOver (h : StaysOut s t) : StaysOut s t.dropOver := by
  obtain ⟨-, e⟩ | ⟨-, e⟩ := t.dropOver_cases <;> rw [e]
  · exact h
  · exact h.congr

theorem StaysOut.withTmb (h : StaysOut s t) (b : Timebase) : StaysOut s { t with tmb := b } := h.congr

theorem StaysOut.flagMayEnd (h : StaysOut s t) : StaysOut s t.flagMayEnd := by
  obtain ⟨q, x, n, e, -⟩ := t.flagMayEnd_eq
  rw [e]
  exact h.congr

theorem StaysOut.mixInstant (h : StaysOut s t) : StaysOut s t.mixInstant := by
  obtain ⟨g, e, -⟩ := t.mixInstant_eq
  rw [e]
  exact h.congr

theorem StaysOut.sampleInstant (h : StaysOut s t) : StaysOut s t.sampleInstant := by
  have h1 := h.settle
  unfold State.sampleInstant
  generalize t.settle = u at h1 ⊢
  replace h1 := h1.withTmb u.tmb.countSample
  dsimp only
  split
  · exact h1.congr
  · exact (staysOut_stable s).freeRunOut ((staysOut_stable s).arbitrate h1.flagMayEnd.mixInstant)

theorem StaysOut.ageRequests (h : StaysOut s t) : StaysOut s t.ageRequests := h.congr

theorem StaysOut.judgeBlock (h : StaysOut s t) : StaysOut s t.judgeBlock := by
  obtain ⟨p, q, g, e⟩ := t.judgeBlock_eq
  rw [e]
  exact h.congr

theorem StaysOut.blockBoundary (h : StaysOut s t) (levels : Byte) : StaysOut s (t.blockBoundary levels) := by
  have h1 := h.settle.withTmb t.settle.tmb.countBlock
  unfold State.blockBoundary
  dsimp only
  split
  · exact h1
  · exact StaysOut.judgeBlock (StaysOut.ageRequests ((staysOut_stable s).sampleLines levels h1))

theorem StaysOut.countPenalties (h : StaysOut s t) : StaysOut s t.countPenalties := h.congr

theorem StaysOut.countDucks (h : StaysOut s t) : StaysOut s t.countDucks := h.congr

theorem StaysOut.holdUnitBoundary (h : StaysOut s t) : StaysOut s t.holdUnitBoundary := by
  have h1 := h.settle.withTmb { t.settle.tmb with blocks := 0 }
  unfold State.holdUnitBoundary
  dsimp only
  split
  · exact h1
  · exact ((staysOut_stable s).countHolds h1.countPenalties).countDucks

/-! ## Frames -/

theorem StaysOut.allStop (h : StaysOut s t) (k : Nat) : StaysOut s (t.allStop k) := by
  have h1 : StaysOut s t.takeTrips := (h.tripPair .pgm).tripPair .floor
  exact (staysOut_stable s).visit (fun p _ h => (staysOut_stable s).allStopPart k p h) _ h1.congr

theorem StaysOut.stopFrame (h : StaysOut s t) (target cue : Byte) (fade : BitVec 3) : StaysOut s (t.stopFrame target cue fade) := by
  unfold State.stopFrame
  split
  · split
    · exact h.allStop _
    · exact (staysOut_stable s).stopCue _ _ h
  · exact h

theorem StaysOut.fireFrame (h : StaysOut s t) (src : Nat) (target cue : Byte) : StaysOut s (t.fireFrame src target cue) := by
  unfold State.fireFrame State.fireCue
  split
  · split
    · exact h
    · split
      · exact (staysOut_stable s).runPass h.congr
      · exact h.congr
  · exact h

theorem StaysOut.offer (h : StaysOut s t) (f : Frame) : StaysOut s (t.offer f) := h.of_kept (offer_kept t f)

theorem StaysOut.askFrame (h : StaysOut s t) (target : Byte) : StaysOut s (t.askFrame target) := by
  unfold State.askFrame
  split
  · exact h.offer _
  · exact h

theorem StaysOut.enterSilent (h : StaysOut s t) : StaysOut s t.enterSilent :=
  (staysOut_stable s).visitServing (fun v _ h => (staysOut_stable s).withdraw v _ h) _ (h.step (by simp))

theorem StaysOut.duplicateFrame (h : StaysOut s t) (fresh : Bool) : StaysOut s (t.duplicateFrame fresh) := by
  unfold State.duplicateFrame
  split
  · exact h.enterSilent
  · split
    · exact h.offer _
    · exact h.enterSilent
  · exact h
  · exact h

theorem StaysOut.latchIf (h : StaysOut s t) (b : Bool) (f : Flag) : StaysOut s (t.latchIf b f) := (staysOut_stable s).latchIf b f h

theorem StaysOut.duckStart (h : StaysOut s t) (src tag : Nat) (emit : ClassSet) (depth hold : Nat) :
    StaysOut s (t.duckStart src tag emit depth hold) := by
  unfold State.duckStart
  dsimp only
  split
  · exact h.congr
  · split
    · exact h.congr
    · exact StaysOut.latchIf h.congr _ _

theorem StaysOut.applyForeign (h : StaysOut s t) (src : Nat) (f : Frame) : StaysOut s (t.applyForeign src f) := by
  have hs := staysOut_stable s
  cases f
  case claim => exact hs.foreignClaim _ _ h
  case held => exact hs.foreignHeld _ _ h
  case release => exact hs.releaseGroup _ h
  case start => exact hs.chokeGroup _ (h.duckStart _ _ _ _ _)
  case endFrame | hold => exact h.congr
  case stop => exact h.stopFrame _ _ _
  case fire => exact h.fireFrame _ _ _
  case arm => exact hs.armGroups _ h
  case disarm => exact hs.disarmGroups _ h
  case ask => exact h.askFrame _
  case status => exact h

theorem StaysOut.receiveFrame (h : StaysOut s t) (source : BitVec 5) (f : Option Frame) : StaysOut s (t.receiveFrame source f) := by
  have hc : StaysOut s t.countFrame := h.congr
  unfold State.receiveFrame
  split
  · exact h
  · split
    · exact hc.duplicateFrame _
    · split
      · exact hc
      · split
        · exact hc
        · exact hc.applyForeign _ _

theorem StaysOut.statusDone (h : StaysOut s t) (b2 b3 : Byte) : StaysOut s (t.statusDone b2 b3) := by
  refine StaysOut.congr (inOrder_keeps (P := StaysOut s) (fun f u hu => ?_) allFlags h)
  unfold State.clearCarried
  split
  · exact hu.congr
  · exact hu

theorem StaysOut.joinStatusDone (h : StaysOut s t) : StaysOut s t.joinStatusDone := by
  unfold State.joinStatusDone
  split
  · exact h.congr
  · exact h

theorem StaysOut.ownStart (h : StaysOut s t) (tag hold : Nat) : StaysOut s (t.ownStart tag hold) := by
  unfold State.ownStart
  dsimp only
  split
  · exact h.congr
  · split
    · split
      · exact StaysOut.offer h.congr _
      · exact h
    · exact h

theorem StaysOut.applyOwn (h : StaysOut s t) (f : Frame) : StaysOut s (t.applyOwn f) := by
  have hs := staysOut_stable s
  cases f
  case claim => exact hs.ownClaim _ h
  case held => exact hs.ownHeld _ h
  case release => exact hs.releaseGroup _ h
  case start => exact h.ownStart _ _
  case hold => exact hs.ownHold _ _ h
  case stop => exact h.stopFrame _ _ _
  case fire => exact h.fireFrame _ _ _
  case arm => exact hs.armGroups _ h
  case disarm => exact hs.disarmGroups _ h
  case status => exact (h.statusDone _ _).joinStatusDone
  case endFrame | ask => exact h

theorem StaysOut.completeOwn (h : StaysOut s t) (heard : Bool) (p : Frame → Bool) : StaysOut s (t.completeOwn heard p) := by
  unfold State.completeOwn
  split
  · split
    · exact StaysOut.applyOwn (StaysOut.latchIf h.congr _ _) _
    · exact h
  · exact h

theorem StaysOut.completeFrame (h : StaysOut s t) (sender : Sender) (f : Frame) : StaysOut s (t.completeFrame sender f) := by
  unfold State.completeFrame
  split
  · exact h.completeOwn _ _
  · exact h.receiveFrame _ _

/-! ## The wire -/

theorem StaysOut.offerJoin (h : StaysOut s t) : StaysOut s t.offerJoin := by
  unfold State.offerJoin
  split
  · exact StaysOut.offer h.congr _
  · exact h

theorem StaysOut.begin (h : StaysOut s t) (place : Nat) : StaysOut s (t.begin place) := by
  unfold State.begin
  split
  · exact h.congr
  · exact h

theorem StaysOut.dropped (h : StaysOut s t) (f : Frame) : StaysOut s (t.dropped f) := by
  have hs := staysOut_stable s
  cases f <;> unfold State.dropped <;> dsimp only
  case start tag _ _ _ =>
    have h1 := hs.loseStart tag.toNat h
    split
    · split
      · exact h1.congr
      · exact h1
    · exact h1
  case claim =>
    split
    · exact hs.settlePasses (hs.withdraw _ _ h)
    · exact h
  case status =>
    split
    · exact h.enterSilent
    · exact h
  all_goals exact h

/-! ## The commands -/

theorem StaysOut.land (h : StaysOut s t) (v : Fin 8) (r : Read) (frames : List SampleFrame) : StaysOut s (t.land v r frames) :=
  (staysOut_stable s).testPrimed v ((staysOut_stable s).setVoice v _ h)

theorem StaysOut.execReadEnd {u : State} (h : StaysOut s t) {bytes : List Byte} (he : execReadEnd bytes t = .next u) :
    StaysOut s u := by
  have hs := staysOut_stable s
  unfold Machine.execReadEnd at he
  split at he
  · cases he
    exact h
  · split at he
    · cases he
      exact h
    · split at he
      · cases he
        exact hs.arbitrate h.congr
      · split at he
        · cases he
        · cases he
          apply hs.arbitrate
          split
          · exact StaysOut.congr (h.land _ _ _)
          · exact h.congr

/-- Out of LOADING no configuration read and no directory read is awaited (R160; log entry 4). -/
theorem not_awaits_of_mode (h : t.mode ≠ .loading) : t.awaitsConfig = false ∧ t.awaitsDirectory = false := by
  simp [State.awaitsConfig, State.awaitsDirectory, State.isLoading, h]

theorem StaysOut.loaderRead {u v : State} (h : StaysOut s t) {p : Prop} [Decidable p] {b : Bool} {r : Refusal} (hb : b = false)
    (he : (if p then .refused r else .next (if b then v else t) : Host.Outcome State Fault Refusal) = .next u) : StaysOut s u := by
  subst hb
  split at he
  · cases he
  · cases he
    exact h

theorem StaysOut.receiveRaw {u : State} (h : StaysOut s t) {kind source : BitVec 5} {payload : List Byte}
    (he : receiveRaw kind source payload t = .next u) : StaysOut s u := by
  unfold Machine.receiveRaw at he
  split at he
  · cases he
    exact h.receiveFrame _ _
  · cases he

theorem StaysOut.rxDiscard {u : State} (h : StaysOut s t) {bits : List Bool} (he : execRxDiscard bits t = .next u) :
    StaysOut s u := by
  unfold execRxDiscard at he
  split at he
  · cases he
  · cases he
    split
    · split
      · exact h.congr
      · exact h
    · exact h
    · exact h

theorem StaysOut.guarded {u : State} (h : StaysOut s t) (b : Bool) (hu : StaysOut s u) : StaysOut s (if b then t else u) := by
  split
  · exact h
  · exact hu

theorem StaysOut.bitError {u : State} (h : StaysOut s t) (he : execBitError t = .next u) : StaysOut s u := by
  have hd : StaysOut s t.driveError := h.congr
  cases he
  split
  · split
    · exact StaysOut.dropped hd.congr _
    · exact (staysOut_stable s).heldOff _ hd.congr
  · exact h

/-- Every command but RESET keeps the station out of LOADING, with its settings. -/
theorem StaysOut.exec {u : State} (h : StaysOut s t) {c : Instr} (hc : c ≠ .reset) (he : exec c t = .next u) : StaysOut s u := by
  have hs := staysOut_stable s
  cases c
  case reset => exact absurd rfl hc
  case configReadEnd => exact h.loaderRead (by rw [(not_awaits_of_mode h.mode).1]; rfl) he
  case directoryReadEnd => exact h.loaderRead (by rw [(not_awaits_of_mode h.mode).2]; rfl) he
  case sampleInstant => cases he; exact h.guarded _ h.sampleInstant
  case endOfData v => cases he; exact hs.endData v h
  case fadeStep | duckStep =>
    cases he
    split
    · exact h.congr
    · exact h
  case blockBoundary levels =>
    cases he
    split
    · exact h.blockBoundary levels
    · exact h
  case playPress n | sendPress n => cases he; exact h.guarded _ (hs.pressEvent n h)
  case playRelease n | sendRelease n => cases he; exact h.guarded _ (hs.releaseEvent n h)
  case requestExpiry which =>
    cases he
    split
    · exact hs.expireLine _ _ h
    · exact hs.expireRemote _ _ h
  case deadAir o => cases he; exact h.latchDeadAir o
  case overloadTrip o => cases he; exact h.tripPair o
  case recoveryWaitEnd o => cases he; exact h.recoverPair o
  case attemptsForgiven o => cases he; exact h.setPair o _
  case joinWaitEnd => cases he; exact h.endJoinWait
  case holdUnitBoundary =>
    cases he
    split
    · exact h.holdUnitBoundary
    · exact h
  case penaltyEnd n => cases he; exact hs.endPenalty n h
  case duckEntryExpiry => cases he; exact h.congr
  case readEnd => exact h.execReadEnd he
  case busIdle => cases he; exact h.guarded _ (StaysOut.offerJoin h.dropOver.congr)
  case frameBegin =>
    cases he
    split
    · split
      · exact h.begin _
      · exact h
    · exact h
  case arbitrationLost =>
    cases he
    split
    · exact hs.heldOff _ h.congr
    · exact h
  case bitError => exact h.bitError he
  case rxDiscard => exact h.rxDiscard he
  case rxUnappliedFrame | rxOwnNumberFrame => exact h.receiveRaw he
  case rxStartBit =>
    cases he
    split
    · exact h.congr
    · exact h
  case ownClaimComplete | ownHeldComplete | ownStartComplete | ownEndComplete | ownHoldComplete | ownStatusComplete =>
    cases he; exact h.completeOwn _ _
  case release | stop | allStop | fire | arm | disarm => cases he; exact h.completeFrame _ _
  case claim | held | start | endFrame | hold | ask | status | rxFreshStatusOwnNumber => cases he; exact h.receiveFrame _ _

/-- Settles O3: no operation of a command but RESET enters LOADING, and only LOADING's reads write the settings. -/
theorem settingsFixedOutsideLoading : Obligations.SettingsFixedOutsideLoading := by
  intro c s t hm hc he
  have h := (StaysOut.of_mode hm).exec hc he
  exact ⟨h.mode, h.settings⟩

end Sys2Proof.Machine
end

section
/-! PROOF. Well-formed commands answer a next state, and the directory read ends LOADING
(WellFormedCommandsComplete, DirectoryReadEndsLoading). -/

namespace Sys2Proof.Machine

set_option Elab.async false

variable {s : State}

/-! ## No refusal of a well-formed command (log entry 5) -/

/-- Out of LOADING the flash read under way is the one that heads the transfer, over the link as configured (R16, R17). -/
theorem State.flashRead?_of_link {t : Transfer} {r : Read} {rest : List Read} (hm : s.mode ≠ .loading) (hl : s.link = some t)
    (hr : t.reads = r :: rest) :
    s.flashRead? = some { address := r.address, bytes := r.count * t.format.bytes, wide := s.cfg.wide } := by
  simp [State.flashRead?, State.isLoading, hm, hl, hr]

/-- A READ_END of the length that the read under way brings: the frames land or not, and the link goes on (R17, R18). -/
theorem execReadEnd_of_link {t : Transfer} {r : Read} {rest : List Read} {bytes : List Byte} (hm : s.mode ≠ .loading)
    (hl : s.link = some t) (hr : t.reads = r :: rest) (hb : bytes.length = r.count * t.format.bytes) :
    execReadEnd bytes s =
      .next
        ({ (if lands s t r then s.land t.slot r (framesOf t.format bytes) else s) with link := afterRead t rest }.arbitrate) := by
  have hbrings : s.readBrings bytes = true := by
    unfold State.readBrings
    rw [State.flashRead?_of_link hm hl hr]
    exact decide_eq_true hb
  unfold execReadEnd
  rw [if_neg (by simpa [State.isLoading] using hm), hl]
  dsimp only
  rw [hr]
  dsimp only
  rw [if_neg (by simp [hbrings])]

theorem execReadEnd_complete (bytes : List Byte)
    (h : s.mode ≠ .loading → ∀ t r rest, s.link = some t → t.reads = r :: rest → bytes.length = r.count * t.format.bytes) :
    ∃ t, execReadEnd bytes s = .next t := by
  by_cases hm : s.mode = .loading
  · exact ⟨s, if_pos (decide_eq_true hm)⟩
  · cases hl : s.link with
    | none => exact ⟨s, by simp [execReadEnd, State.isLoading, hm, hl]⟩
    | some t =>
      cases hr : t.reads with
      | nil => exact ⟨_, by simp [execReadEnd, State.isLoading, hm, hl, hr]; rfl⟩
      | cons r rest => exact ⟨_, execReadEnd_of_link hm hl hr (h hm t r rest hl hr)⟩

theorem receiveRaw_complete {kind source : BitVec 5} {payload : List Byte} (h : payload.length ≤ payloadMax) :
    ∃ t, receiveRaw kind source payload s = .next t := ⟨_, if_pos h⟩

/-- Settles O2: only the commands whose operand is a list can be refused, and the lengths of `Instr.wellFormed` shut that out. -/
theorem wellFormedCommandsComplete : Obligations.WellFormedCommandsComplete := by
  intro c s hw hread
  cases c
  case configReadEnd bytes => exact ⟨_, if_neg (not_not_intro (beq_iff_eq.mp hw))⟩
  case directoryReadEnd bytes => exact ⟨_, if_neg (not_not_intro (beq_iff_eq.mp hw))⟩
  case readEnd bytes => exact execReadEnd_complete bytes (hread bytes rfl)
  case rxUnappliedFrame | rxOwnNumberFrame => exact receiveRaw_complete (of_decide_eq_true hw)
  case rxDiscard bits => exact ⟨_, if_neg (Nat.not_lt.mpr (of_decide_eq_true hw))⟩
  all_goals exact ⟨_, rfl⟩

/-! ## The directory (R6, R163, R164) -/

/-- Slot i of the directory area is its 32 bytes from byte 32 i. -/
theorem slotsOf_getElem (n : Nat) (b : List Byte) (i : Nat) (h : i < (slotsOf n b).length) :
    (slotsOf n b)[i] = (b.drop (32 * i)).take 32 := by
  induction n generalizing b i with
  | zero => exact absurd h (Nat.not_lt_zero i)
  | succ n ih =>
    cases i with
    | zero => rfl
    | succ i =>
      have hi := ih (b.drop 32) i (Nat.lt_of_succ_lt_succ h)
      rw [List.drop_drop, show 32 + 32 * i = 32 * (i + 1) by omega] at hi
      exact hi

/-- Record c of the table that a directory read gives is its slot, classified (R4, R163). -/
theorem directoryOf_get (bytes : List Byte) (c : Fin 255) :
    (directoryOf bytes).get c = classifyRecord ((bytes.drop (32 * c.val)).take 32) := by
  unfold directoryOf Table.ofList Table.get
  rw [List.getElem_map, slotsOf_getElem]

theorem badCount_eq (t : Table 255 CueRecord) : badCount t = t.items.countP fun r => decide (r = .bad) :=
  List.countP_eq_length_filter.symm

/-- Settles O12: the awaited directory read fills the table and leaves LOADING, and record by record the table is its slots. -/
theorem directoryReadEndsLoading : Obligations.DirectoryReadEndsLoading := by
  intro bytes s hb hm hl
  have hflash : s.flashRead? = some { address := 4096, bytes := 8160, wide := s.cfg.wide } := by
    simp [State.flashRead?, State.isLoading, hm, hl, directoryBytes]
  have hgo : (s.awaitsDirectory && s.readBrings bytes) = true := by
    simp [State.awaitsDirectory, State.isLoading, State.readBrings, hm, hl, hflash, hb]
  refine ⟨hflash, (s.fillDirectory bytes).leaveLoading, ?_, directoryOf_get bytes, badCount_eq _, rfl⟩
  exact (if_neg (not_not_intro hb)).trans (congrArg Host.Outcome.next (if_pos hgo))

end Sys2Proof.Machine
end

section
/-! PROOF. Records are classified by the tests of R4 and the conditions of R5, and read by 10.2 (RecordsAreClassified). -/

namespace Sys2Proof.Machine

set_option Elab.async false

/-! ## Numbers and bits of a record -/

theorem littleAt_three (b : List Byte) (i : Nat) :
    littleAt b i 3 = natAt b i + 256 * natAt b (i + 1) + 65536 * natAt b (i + 2) := by
  unfold littleAt littleAt littleAt littleAt
  rw [Nat.mul_zero, Nat.add_zero, Nat.mul_add, ← Nat.mul_assoc, ← Nat.add_assoc]
  rfl

theorem natAt_lt (b : List Byte) (i : Nat) : natAt b i < 256 := (byteAt b i).isLt

/-- Bits of a byte read as a number or as a bit string are the same bits. -/
theorem fieldAt_eq_extract (b : List Byte) (i hi lo : Nat) :
    fieldAt b i hi lo = ((byteAt b i).extractLsb' lo (hi + 1 - lo)).toNat := by
  rw [BitVec.extractLsb'_toNat, Nat.shiftRight_eq_div_pow]
  rfl

theorem ofNat_fieldAt (b : List Byte) (i hi lo : Nat) :
    BitVec.ofNat (hi + 1 - lo) (fieldAt b i hi lo) = (byteAt b i).extractLsb' lo (hi + 1 - lo) := by
  rw [fieldAt_eq_extract, BitVec.ofNat_toNat, BitVec.setWidth_eq]

theorem fieldAt_zero_bit (b : List Byte) (i : Nat) : fieldAt b i 0 0 = 0 ↔ (byteAt b i).getLsbD 0 = false := by
  unfold fieldAt natAt BitVec.getLsbD
  rw [Nat.testBit_zero, decide_eq_false_iff_not]
  omega

/-! ## The coded fields (10.2) -/

theorem decodeMode_eq (b : List Byte) :
    decodeMode b =
      if fieldAt b 0 2 1 = 0 then some .oneShot
      else if fieldAt b 0 2 1 = 1 then some (.loop (littleAt b 7 3 % 2 ^ 23) (littleAt b 10 3 % 2 ^ 23))
      else if fieldAt b 0 2 1 = 2 then some (.loopTail (littleAt b 7 3 % 2 ^ 23) (littleAt b 10 3 % 2 ^ 23))
      else none := by
  unfold decodeMode
  split <;> simp_all

theorem decodeRoute_eq (b : List Byte) :
    decodeRoute b =
      if fieldAt b 0 4 3 = 0 then some .pgm
      else if fieldAt b 0 4 3 = 1 then some .floor
      else if fieldAt b 0 4 3 = 2 then some .both
      else none := by
  unfold decodeRoute
  split <;> simp_all

theorem decodeRetrigger_eq (b : List Byte) :
    decodeRetrigger b =
      if fieldAt b 0 6 5 = 0 then .restart
      else if fieldAt b 0 6 5 = 1 then .ignore
      else if fieldAt b 0 6 5 = 2 then .toggle
      else .layer := by
  unfold decodeRetrigger
  split <;> simp_all

theorem decodeMode_eq_none (b : List Byte) : decodeMode b = none ↔ fieldAt b 0 2 1 = 3 := by
  have h := fieldAt_lt b 0 2 1
  rw [decodeMode_eq]
  split_ifs <;> simp <;> omega

theorem decodeRoute_eq_none (b : List Byte) : decodeRoute b = none ↔ fieldAt b 0 4 3 = 3 := by
  have h := fieldAt_lt b 0 4 3
  rw [decodeRoute_eq]
  split_ifs <;> simp <;> omega

/-- The loop points of a record that has them are out of order (R5). -/
theorem decodeMode_inOrder {b : List Byte} {m : PlayMode} (h : decodeMode b = some m) (length : Nat) :
    m.inOrder length = false ↔
      (fieldAt b 0 2 1 = 1 ∨ fieldAt b 0 2 1 = 2) ∧
        (littleAt b 10 3 % 2 ^ 23 ≤ littleAt b 7 3 % 2 ^ 23 ∨ length < littleAt b 10 3 % 2 ^ 23) := by
  have hloop : ∀ a c : Nat, (decide (a < c) && decide (c ≤ length)) = false ↔ c ≤ a ∨ length < c := by
    intro a c
    simp only [Bool.and_eq_false_iff, decide_eq_false_iff_not, Nat.not_lt, Nat.not_le]
  rw [decodeMode_eq] at h
  split_ifs at h with h0 h1 h2 <;> cases h
  · simp [PlayMode.inOrder, h0]
  · simp only [PlayMode.inOrder, hloop, h1, true_or, true_and]
  · simp only [PlayMode.inOrder, hloop, h2, or_true, true_and]

/-- The fields of a record whose play mode and route are given (10.2). -/
def cueOfBytes (b : List Byte) (m : PlayMode) (r : Route) : Cue where
  start := littleAt b 1 3
  length := littleAt b 4 3 % 2 ^ 23
  format := if fieldAt b 0 0 0 = 0 then .mono else .stereo
  mode := m
  level := natAt b 13
  route := r
  group := natAt b 14
  priority := natAt b 15
  retrigger := decodeRetrigger b
  fadeIn := fieldAt b 16 3 0
  fadeOut := fieldAt b 16 7 4
  emit := BitVec.ofNat 4 (fieldAt b 17 3 0)
  depth := natAt b 18
  listen := BitVec.ofNat 4 (fieldAt b 17 7 4)

theorem decodeFields_eq_some {b : List Byte} {q : Cue} :
    decodeFields b = some q ↔ ∃ m r, decodeMode b = some m ∧ decodeRoute b = some r ∧ q = cueOfBytes b m r := by
  unfold decodeFields
  cases decodeMode b <;> cases decodeRoute b <;> simp [cueOfBytes, eq_comm]

theorem decodeFields_eq_none {b : List Byte} : decodeFields b = none ↔ fieldAt b 0 2 1 = 3 ∨ fieldAt b 0 4 3 = 3 := by
  rw [← decodeMode_eq_none, ← decodeRoute_eq_none]
  unfold decodeFields
  cases decodeMode b <;> cases decodeRoute b <;> simp

/-! ## The three tests (R4) and the conditions of R5 -/

/-- The third test of R4: a record that is in use and whose check agrees is PRESENT or BAD by its fields. -/
theorem classifyRecord_third {b : List Byte} (hn : natAt b 0 ≠ 255) (hc : checkAgrees b 30 = true) :
    (∃ q, decodeFields b = some q ∧ q.consistent = true ∧ classifyRecord b = .present q) ∨
    (∃ q, decodeFields b = some q ∧ q.consistent = false ∧ classifyRecord b = .bad) ∨
    decodeFields b = none ∧ classifyRecord b = .bad := by
  unfold classifyRecord
  rw [if_neg hn, if_pos hc]
  cases decodeFields b with
  | none => exact .inr (.inr ⟨rfl, rfl⟩)
  | some q =>
    cases hq : q.consistent with
    | true => exact .inl ⟨q, rfl, hq, by simp [hq]⟩
    | false => exact .inr (.inl ⟨q, rfl, hq, by simp [hq]⟩)

/-- A PRESENT record is one whose fields decode. -/
theorem decodeFields_of_present {b : List Byte} {q : Cue} (h : classifyRecord b = .present q) : decodeFields b = some q := by
  have hn : natAt b 0 ≠ 255 := fun e => by simp [classifyRecord, e] at h
  have hc : checkAgrees b 30 = true := by
    by_contra hc
    simp [classifyRecord, hn, hc] at h
  rcases classifyRecord_third hn hc with ⟨p, hp, -, he⟩ | ⟨p, -, -, he⟩ | ⟨-, he⟩ <;> rw [he] at h <;> cases h
  exact hp

/-- The conditions of R5, each of which makes the fields of a record inconsistent. -/
theorem Cue.consistent_eq_false_iff (q : Cue) :
    q.consistent = false ↔
      q.length = 0 ∨ q.level = 0 ∨ q.start % 2 = 1 ∨ 16777216 < q.start + q.length * q.format.bytes ∨
      q.mode.inOrder q.length = false ∨ 7 < q.fadeIn ∨ 7 < q.fadeOut ∨ 15 < q.group ∨ 7 < q.priority := by
  simp only [Cue.consistent, Bool.and_eq_false_iff, decide_eq_false_iff_not, not_not, Nat.not_le,
    Nat.mod_two_not_eq_zero, or_assoc, ne_eq]
  exact Iff.rfl

/-- The conditions of R5 as the bytes of a record give them. -/
theorem cueOfBytes_inconsistent {b : List Byte} {m : PlayMode} {r : Route} (hm : decodeMode b = some m) :
    (cueOfBytes b m r).consistent = false ↔
      littleAt b 4 3 % 2 ^ 23 = 0 ∨ natAt b 13 = 0 ∨ littleAt b 1 3 % 2 = 1 ∨
      16777216 < littleAt b 1 3 + littleAt b 4 3 % 2 ^ 23 * (if fieldAt b 0 0 0 = 0 then 2 else 4) ∨
      ((fieldAt b 0 2 1 = 1 ∨ fieldAt b 0 2 1 = 2) ∧
        (littleAt b 10 3 % 2 ^ 23 ≤ littleAt b 7 3 % 2 ^ 23 ∨ littleAt b 4 3 % 2 ^ 23 < littleAt b 10 3 % 2 ^ 23)) ∨
      7 < fieldAt b 16 3 0 ∨ 7 < fieldAt b 16 7 4 ∨ 15 < natAt b 14 ∨ 7 < natAt b 15 := by
  have hbytes : (if fieldAt b 0 0 0 = 0 then 2 else 4) = (cueOfBytes b m r).format.bytes := by
    unfold cueOfBytes
    dsimp only
    split <;> rfl
  rw [Cue.consistent_eq_false_iff, ← decodeMode_inOrder hm, hbytes]
  exact Iff.rfl

/-- The places of the two conditions on codes among the other conditions. -/
theorem or_codes_first (a b c d e x y rest : Prop) :
    (a ∨ b ∨ c ∨ d ∨ e ∨ x ∨ y ∨ rest) ↔ (x ∨ y) ∨ (a ∨ b ∨ c ∨ d ∨ e ∨ rest) := by
  tauto

/-- Settles O11: R4's tests in their order (`classifyRecord_third`), R5's conditions (`cueOfBytes_inconsistent`), and the fields of
10.2 as `cueOfBytes` reads them. -/
theorem recordsAreClassified : Obligations.RecordsAreClassified := by
  intro b
  refine ⟨fun h => if_pos h, fun hn hc => by simp [classifyRecord, hn, hc], fun hn hc => ⟨?_, ?_⟩, fun q hq => ?_⟩
  · rw [or_codes_first, ← decodeFields_eq_none]
    rcases classifyRecord_third hn hc with ⟨q, hq, hcons, he⟩ | ⟨q, hq, hcons, he⟩ | ⟨hq, he⟩ <;> rw [he, hq]
    · obtain ⟨m, r, hm, -, rfl⟩ := decodeFields_eq_some.mp hq
      rw [← cueOfBytes_inconsistent (r := r) hm, hcons]
      simp
    · obtain ⟨m, r, hm, -, rfl⟩ := decodeFields_eq_some.mp hq
      rw [← cueOfBytes_inconsistent (r := r) hm, hcons]
      simp
    · simp
  · intro h
    rcases classifyRecord_third hn hc with ⟨q, -, -, he⟩ | ⟨q, -, -, he⟩ | ⟨-, he⟩
    · exact ⟨q, he⟩
    · exact absurd he h
    · exact absurd he h
  · obtain ⟨m, r, hm, hr, rfl⟩ := decodeFields_eq_some.mp (decodeFields_of_present hq)
    have hlow := natAt_lt b 16
    intro three code
    have hthree : ∀ i, three i = littleAt b i 3 := fun i => (littleAt_three b i).symm
    have hmode : code 1 = fieldAt b 0 2 1 := (fieldAt_eq_extract b 0 2 1).symm
    have hroute : code 3 = fieldAt b 0 4 3 := (fieldAt_eq_extract b 0 4 3).symm
    have hretrigger : code 5 = fieldAt b 0 6 5 := (fieldAt_eq_extract b 0 6 5).symm
    rw [hthree, hthree, hthree, hthree, hmode, hroute, hretrigger]
    refine ⟨rfl, rfl, ?_, ?_, ?_, decodeRetrigger_eq b, rfl, rfl, rfl, ?_, ?_, ofNat_fieldAt b 17 3 0, ofNat_fieldAt b 17 7 4, rfl⟩
    · have hbit := fieldAt_zero_bit b 0
      unfold cueOfBytes
      dsimp only
      split
      next h => rw [hbit.mp h]; exact ⟨nofun, nofun⟩
      next h => exact ⟨fun _ => Bool.eq_true_of_not_eq_false (mt hbit.mpr h), fun _ => rfl⟩
    · rw [decodeMode_eq] at hm
      split_ifs at hm ⊢ <;> cases hm <;> rfl
    · rw [decodeRoute_eq] at hr
      split_ifs at hr ⊢ <;> cases hr <;> rfl
    · simp [cueOfBytes, fieldAt]
    · simp [cueOfBytes, fieldAt]
      omega

end Sys2Proof.Machine
end

section
/-! PROOF. A serving pass over at most one request, and the decisions that refuse one or pass it to step 6 (R36 to R41). -/

namespace Sys2Proof.Machine

set_option Elab.async false

/-! ## Taking an operation in order -/

theorem inOrder_append {α : Type} (f : α → State → State) (a b : List α) (s : State) :
    inOrder f (a ++ b) s = inOrder f b (inOrder f a s) := by
  induction a generalizing s with
  | nil => rfl
  | cons x rest ih => exact ih (f x s)

theorem inOrder_eq_self {α : Type} {f : α → State → State} {l : List α} {s : State} (h : ∀ a ∈ l, f a s = s) :
    inOrder f l s = s := by
  induction l with
  | nil => rfl
  | cons x rest ih =>
    unfold inOrder
    rw [h x List.mem_cons_self]
    exact ih fun a ha => h a (List.mem_cons_of_mem x ha)

/-- Where one member alone has something to do, before and after its turn, the whole comes to its turn. -/
theorem inOrder_eq_one {α : Type} {f : α → State → State} {l : List α} {x : α} {s : State} (hl : l.Nodup) (hx : x ∈ l)
    (before : ∀ a, a ≠ x → f a s = s) (after : ∀ a, a ≠ x → f a (f x s) = f x s) : inOrder f l s = f x s := by
  obtain ⟨a, b, rfl⟩ := List.append_of_mem hx
  rw [List.nodup_middle, List.nodup_cons, List.mem_append, not_or] at hl
  obtain ⟨⟨ha, hb⟩, -⟩ := hl
  rw [inOrder_append, inOrder_eq_self fun y hy => before y fun e => ha (e ▸ hy)]
  exact inOrder_eq_self fun y hy => after y fun e => hb (e ▸ hy)

variable {s : State}

/-! ## The pass (R36) -/

/-- No line but n has a request, and none waits in the remote queue. -/
structure AtMostLine (s : State) (n : Fin 8) : Prop where
  others : ∀ m, m ≠ n → (s.line m).request = none
  remote : s.remote = []

theorem State.serveLine_of_none {n : Fin 8} (h : (s.line n).request = none) : s.serveLine n = s := by
  unfold State.serveLine
  rw [h]

theorem State.servePlace_castSucc (n : Fin 8) : s.servePlace n.castSucc = s.serveLine n := dif_pos n.isLt

theorem State.servePlace_last (h : s.remote = []) : s.servePlace 8 = s := by
  have hr : State.serveRemote Config.remoteSize s = s := by
    unfold Config.remoteSize State.serveRemote
    rw [h]
  exact hr

theorem AtMostLine.servePlace_ne {n : Fin 8} (h : AtMostLine s n) {p : Fin 9} (hp : p ≠ n.castSucc) : s.servePlace p = s := by
  induction p using Fin.lastCases with
  | last => exact State.servePlace_last h.remote
  | cast m =>
    rw [State.servePlace_castSucc]
    exact State.serveLine_of_none (h.others m fun e => hp (e ▸ rfl))

/-- Each position is taken once in a pass (R36). -/
theorem State.servingOrder_nodup (p : Fin 9) : s.servingOrder.Nodup ∧ p ∈ s.servingOrder := by
  have h : ∀ start p : Fin 9, (placesFrom start).Nodup ∧ p ∈ placesFrom start := by decide
  exact h _ p

/-- A pass over the request of one line serves that line. -/
theorem AtMostLine.servePass {n : Fin 8} (h : AtMostLine s n) (ht : AtMostLine (s.serveLine n) n) :
    s.servePass = s.serveLine n := by
  obtain ⟨hnodup, hmem⟩ := s.servingOrder_nodup n.castSucc
  rw [← State.servePlace_castSucc] at ht ⊢
  exact inOrder_eq_one hnodup hmem (fun p hp => h.servePlace_ne hp) fun p hp => ht.servePlace_ne hp

theorem State.settlePasses_of_none (h : s.passesDue = 0) : s.settlePasses = s := by
  unfold State.settlePasses maxPasses State.passesFrom
  exact if_pos h

/-- One pass owed is run, where it owes no other. -/
theorem State.settlePasses_of_one (h : s.passesDue = 1) (ht : ({ s with passesDue := 0 }.servePass).passesDue = 0) :
    s.settlePasses = { s with passesDue := 0 }.servePass := by
  unfold State.settlePasses maxPasses State.passesFrom
  rw [if_neg (by omega), h]
  unfold State.passesFrom
  exact if_pos ht

theorem State.passesDue_eta (h : s.passesDue = 0) : { s with passesDue := 0 } = s := by rw [← h]

/-- A pass that an event runs is the only one, where none is owed and it owes none. -/
theorem State.runPass_eq (h : s.passesDue = 0) (ht : s.servePass.passesDue = 0) : s.runPass = s.servePass := by
  have he : { s with passesDue := 0 } = s := State.passesDue_eta h
  have h1 := State.settlePasses_of_one (s := { s with passesDue := 1 }) rfl (by rw [he]; exact ht)
  unfold State.runPass
  rw [h]
  exact h1.trans (by rw [he])

/-! ## The decision (R37 to R41) -/

theorem State.voicesOfCue_isEmpty (c : Nat) (p : VoiceState → Bool) :
    (s.voicesOfCue c p).isEmpty = true ↔ ∀ u, p (s.voice u).state = true → (s.voice u).cue ≠ c := by
  simp [State.voicesOfCue, mem_slots]

theorem State.voicesOfGroup_isEmpty (g : Nat) (p : VoiceState → Bool) :
    (s.voicesOfGroup g p).isEmpty = true ↔ ∀ u, p (s.voice u).state = true → (s.cueOf (s.voice u)).group ≠ g := by
  simp [State.voicesOfGroup, mem_slots]

theorem State.present?_of_record {c : Nat} {q : Cue} (h : s.record c = .present q) : s.present? c = some q := by
  simp [State.present?, h]

theorem State.present?_of_not_present {c : Nat} (h : ∀ q, s.record c ≠ .present q) : s.present? c = none := by
  unfold State.present?
  split
  next q hq => exact absurd hq (h q)
  · rfl
  · rfl

theorem State.groupOf_of_record {c : Nat} {q : Cue} (h : s.record c = .present q) : s.groupOf c = q.group := by
  simp [State.groupOf, State.present?_of_record h]

theorem State.lockedOut_iff (g : Nat) :
    s.lockedOut g = true ↔ s.groupMode g = .firstWins ∧ (s.mode ≠ .run ∨ s.holder g ≠ none) := by
  simp [State.lockedOut, State.isRun, Option.isSome_iff_ne_none]

/-- Step 1 refuses a cue that is not PRESENT (R37). -/
theorem State.decideRequest_absent {c : Nat} (b : Bool) (src : Source) (h : ∀ q, s.record c ≠ .present q) :
    s.decideRequest c b src = s.endRequest src .refused := by
  unfold State.decideRequest
  rw [State.present?_of_not_present h]

/-- Step 3 refuses a FIRST_WINS cue that is locked out (R38). -/
theorem State.decideRequest_lockedOut {c : Nat} {q : Cue} (b : Bool) (src : Source) (h : s.record c = .present q)
    (ha : s.armed q.group = true) (hl : s.lockedOut q.group = true) : s.decideRequest c b src = s.endRequest src .refused := by
  unfold State.decideRequest
  rw [State.present?_of_record h]
  simp [ha, hl]

/-- A cue that is PRESENT, armed and not locked out comes to step 4. -/
theorem State.decideRequest_open {c : Nat} {q : Cue} (b : Bool) (src : Source) (h : s.record c = .present q)
    (ha : s.armed q.group = true) (ho : s.groupMode q.group = .firstWins → s.mode = .run ∧ s.holder q.group = none) :
    s.decideRequest c b src = s.stepRetrigger c q src := by
  have hl : s.lockedOut q.group = false := by
    rw [Bool.eq_false_iff, ne_eq, State.lockedOut_iff]
    rintro ⟨hf, hn | hh⟩
    · exact hn (ho hf).1
    · exact hh (ho hf).2
  unfold State.decideRequest
  rw [State.present?_of_record h]
  simp [ha, hl]

/-- Step 4 refuses an IGNORE cue that is in use (R39). -/
theorem State.stepRetrigger_ignore {c : Nat} {q : Cue} (src : Source) (hq : q.retrigger = .ignore)
    (h : ∃ u, (s.voice u).state.occupies = true ∧ (s.voice u).cue = c) :
    s.stepRetrigger c q src = s.endRequest src .refused := by
  obtain ⟨u, hu, hc⟩ := h
  unfold State.stepRetrigger
  rw [if_neg fun he => (s.voicesOfCue_isEmpty c _).mp he u hu hc, hq]

/-- Step 4 passes a cue that no voice is in the way of, or that layers (R39). -/
theorem State.stepRetrigger_clear {c : Nat} {q : Cue} (src : Source)
    (h : (∀ u, (s.voice u).state.occupies = true → (s.voice u).cue ≠ c) ∨ q.retrigger = .layer) :
    s.stepRetrigger c q src = s.stepGroup c src := by
  unfold State.stepRetrigger
  split
  · rfl
  next hne =>
    rcases h with h | h
    · exact absurd ((s.voicesOfCue_isEmpty c _).mpr h) hne
    · rw [h]

/-- Step 5 refuses a cue whose NONE or FIRST_WINS group is in use (R40). -/
theorem State.stepGroup_refused {c : Nat} (src : Source) (hg : s.groupOf c ≠ 0)
    (h : s.groupMode (s.groupOf c) = .none ∧
        (∃ u, (s.voice u).state.fresh = true ∧ (s.cueOf (s.voice u)).group = s.groupOf c) ∨
      s.groupMode (s.groupOf c) = .firstWins ∧
        ∃ u, (s.voice u).state.occupies = true ∧ (s.cueOf (s.voice u)).group = s.groupOf c) :
    s.stepGroup c src = s.endRequest src .refused := by
  unfold State.stepGroup
  dsimp only
  rw [if_neg hg]
  rcases h with ⟨hm, u, hu, he⟩ | ⟨hm, u, hu, he⟩ <;> rw [hm] <;> dsimp only
  · exact if_neg fun hempty => (s.voicesOfGroup_isEmpty _ _).mp hempty u hu he
  · exact if_neg fun hempty => (s.voicesOfGroup_isEmpty _ _).mp hempty u hu he

theorem VoiceState.occupies_of_fresh {v : VoiceState} (h : v.fresh = true) : v.occupies = true := by
  cases v <;> first | rfl | cases h

/-- Step 5 passes a cue of no group or of one that no voice is in (R40). -/
theorem State.stepGroup_clear {c : Nat} (src : Source)
    (h : s.groupOf c ≠ 0 → ∀ u, (s.voice u).state.occupies = true → (s.cueOf (s.voice u)).group ≠ s.groupOf c) :
    s.stepGroup c src = s.stepVoice c src := by
  unfold State.stepGroup
  dsimp only
  split
  · rfl
  next hg =>
    have hocc := (s.voicesOfGroup_isEmpty (s.groupOf c) _).mpr (h hg)
    have hfresh := (s.voicesOfGroup_isEmpty (s.groupOf c) VoiceState.fresh).mpr fun u hu =>
      h hg u (VoiceState.occupies_of_fresh hu)
    split
    · rw [List.isEmpty_iff.mp hfresh]
      rfl
    · exact if_pos hfresh
    · exact if_pos hocc

/-- A request that passes steps 1 to 5 comes to step 6 with nothing changed (R37 to R41). -/
theorem Admitted.decideRequest {c : Nat} {q : Cue} (h : Admitted s c q) (b : Bool) (src : Source) :
    s.decideRequest c b src = s.stepVoice c src := by
  rw [State.decideRequest_open b src h.record h.armed h.open_, State.stepRetrigger_clear src h.cue]
  exact State.stepGroup_clear src (by rw [State.groupOf_of_record h.record]; exact h.group)

end Sys2Proof.Machine
end

section
/-! PROOF. A press that ends REFUSED (PressIsRefused). -/

namespace Sys2Proof.Machine

set_option Elab.async false

variable {s : State}

/-- The station with a request for cue c that a press of line n has just made (R27). -/
def State.withPress (s : State) (n : Fin 8) (c : Nat) : State :=
  s.setLine n { (s.line n).pressed with request := some { cue := c, latched := false, age := 0 } }

/-- Two writes of one line come to the second. -/
theorem State.setLine_setLine (n : Fin 8) (l m : Line) : (s.setLine n l).setLine n m = s.setLine n m := by
  have h : (s.lines.set n l).set n m = s.lines.set n m := by
    apply Table.ext_get
    intro i
    rw [Table.get_set, Table.get_set, Table.get_set]
    split <;> rfl
  exact congrArg (fun t => { s with lines := t }) h

/-- The group of a cue that is not PRESENT is 0, which is always armed (R27, R72). -/
theorem State.armed_groupOf_absent {c : Nat} (h : ∀ q, s.record c ≠ .present q) : s.armed (s.groupOf c) = true := by
  unfold State.groupOf
  rw [State.present?_of_not_present h]
  rfl

/-- The tests of R27, on the station with the line pressed. -/
theorem State.pressPlay_eq (n : Fin 8) (c : Nat) :
    s.pressPlay n c =
      if ((s.setLine n (s.line n).pressed).line n).penalty.isSome then s.setLine n (s.line n).pressed
      else if ((s.setLine n (s.line n).pressed).line n).request.isSome then s.setLine n (s.line n).pressed
      else if !(s.setLine n (s.line n).pressed).armed ((s.setLine n (s.line n).pressed).groupOf c) then
        (s.setLine n (s.line n).pressed).earlyPress n c
      else (s.setLine n (s.line n).pressed).addRequest n c false := rfl

/-- A press on a PLAY line whose cue's group is armed makes a request, and a pass runs (R27). -/
theorem Presses.exec {n : Fin 8} {c : Byte} (h : Presses s n c) (ha : s.armed (s.groupOf c.toNat) = true) :
    exec (.playPress n) s = .next (s.withPress n c.toNat).runPass := by
  have hplay : (s.lineConfig n).action.playCue = some c.toNat := by rw [h.action]; rfl
  have hguard : (s.isLoading || !s.isPlayLine n) = false := by
    simp [State.isLoading, State.isPlayLine, h.mode, hplay]
  have hline : (s.setLine n (s.line n).pressed).line n = (s.line n).pressed := s.line_setLine_self n _
  have hpen : (s.line n).pressed.penalty = none := h.penalty
  have hreq : (s.line n).pressed.request = none := h.requests.lines n
  have harm : (s.setLine n (s.line n).pressed).armed ((s.setLine n (s.line n).pressed).groupOf c.toNat) = true := ha
  have hevent : s.pressEvent n = s.pressPlay n c.toNat := by
    unfold State.pressEvent
    rw [hplay]
  have hpress : s.pressPlay n c.toNat = (s.setLine n (s.line n).pressed).addRequest n c.toNat false := by
    rw [State.pressPlay_eq, hline, hpen, hreq, harm]
    simp only [Option.isSome_none, Bool.not_true, Bool.false_eq_true, if_false]
  have hadd : (s.setLine n (s.line n).pressed).addRequest n c.toNat false = (s.withPress n c.toNat).runPass := by
    unfold State.addRequest
    rw [hline, State.setLine_setLine]
    rfl
  exact congrArg Host.Outcome.next ((if_neg (by rw [hguard]; exact Bool.false_ne_true)).trans (hevent.trans (hpress.trans hadd)))

/-- The request of a press that its decision refuses leaves the line with the outcome REFUSED, and nothing else (R36). -/
theorem Presses.exec_refused {n : Fin 8} {c : Byte} (h : Presses s n c) (ha : s.armed (s.groupOf c.toNat) = true)
    (hd : (s.withPress n c.toNat).decideRequest c.toNat false (.line n) = (s.withPress n c.toNat).endRequest (.line n) .refused) :
    Machine.exec (.playPress n) s =
      .next { s.setLine n (s.line n).pressed with outcomes := s.outcomes.set n.castSucc (some .refused) } := by
  have hserve : (s.withPress n c.toNat).serveLine n =
      { s.setLine n (s.line n).pressed with outcomes := s.outcomes.set n.castSucc (some .refused) } := by
    have hl : (s.withPress n c.toNat).line n =
        { (s.line n).pressed with request := some { cue := c.toNat, latched := false, age := 0 } } := s.line_setLine_self n _
    have hnone : (s.line n).pressed.request = none := h.requests.lines n
    unfold State.serveLine
    rw [hl]
    dsimp only
    rw [hd]
    change ({ s.withPress n c.toNat with outcomes := s.outcomes.set n.castSucc (some .refused) }).clearRequest n = _
    have hl' : ({ s.withPress n c.toNat with outcomes := s.outcomes.set n.castSucc (some .refused) }).line n =
        { (s.line n).pressed with request := some { cue := c.toNat, latched := false, age := 0 } } := hl
    unfold State.clearRequest
    rw [hl']
    have hset := State.setLine_setLine (s := { s with outcomes := s.outcomes.set n.castSucc (some .refused) }) n
      { (s.line n).pressed with request := some { cue := c.toNat, latched := false, age := 0 } } (s.line n).pressed
    rw [← hnone]
    exact hset
  have hbefore : AtMostLine (s.withPress n c.toNat) n :=
    ⟨fun m hm => by rw [State.withPress, State.line_setLine_ne _ _ hm.symm]; exact h.requests.lines m, h.requests.remote⟩
  have hafter : AtMostLine ((s.withPress n c.toNat).serveLine n) n := by
    rw [hserve]
    refine ⟨fun m hm => ?_, h.requests.remote⟩
    change ((s.setLine n (s.line n).pressed).line m).request = none
    rw [State.line_setLine_ne _ _ hm.symm]
    exact h.requests.lines m
  have hpass := (hbefore.servePass hafter).trans hserve
  have hrun := State.runPass_eq (s := s.withPress n c.toNat) h.requests.passes (by rw [hpass]; exact h.requests.passes)
  rw [h.exec ha, hrun, hpass]

/-- Settles O30: each of the refusals of R37 to R40 is a decision of the request that the press makes. -/
theorem pressIsRefused : Obligations.PressIsRefused := by
  intro s n c h hwhy
  rcases hwhy with habsent | ⟨q, hrec, harm, hwhy⟩
  · exact h.exec_refused (State.armed_groupOf_absent habsent) (State.decideRequest_absent _ _ habsent)
  · have hgroup : s.groupOf c.toNat = q.group := State.groupOf_of_record hrec
    have hstep4 := State.decideRequest_open (s := s.withPress n c.toNat) (c := c.toNat) false (.line n) hrec harm
    refine h.exec_refused (by rw [hgroup]; exact harm) ?_
    rcases hwhy with hlocked | ⟨hopen, ⟨hq, hu⟩ | ⟨hcue, hg, hgm⟩⟩
    · exact State.decideRequest_lockedOut _ _ hrec harm ((s.lockedOut_iff q.group).mpr hlocked)
    · rw [hstep4 hopen]
      exact State.stepRetrigger_ignore _ hq hu
    · rw [hstep4 hopen, State.stepRetrigger_clear (s := s.withPress n c.toNat) _ hcue]
      rw [← hgroup] at hg hgm
      exact State.stepGroup_refused _ hg hgm

end Sys2Proof.Machine
end

section
/-! PROOF. A chunk is divided into reads where the path jumps in flash (R8 to R10, R16). -/

namespace Sys2Proof.Machine

set_option Elab.async false

/-! ## A loop (R9) -/

section
variable {first last : Nat} (h : first < last)
include h

theorem loopIndex_lt (o : Nat) : loopIndex first last o < last := by
  have hm := Nat.mod_lt (o - first) (Nat.sub_pos_of_lt h)
  unfold loopIndex
  split <;> omega

/-- Up to the next return to loop start the cue index goes up with the path offset. -/
theorem loopIndex_add {o j : Nat} (hj : j < last - loopIndex first last o) :
    loopIndex first last (o + j) = loopIndex first last o + j := by
  have hm := Nat.mod_lt (o - first) (Nat.sub_pos_of_lt h)
  unfold loopIndex at hj ⊢
  split at hj
  next ho => rw [if_pos (by omega), if_pos ho]
  next ho =>
    rw [if_neg (by omega), if_neg ho, show o + j - first = o - first + j by omega, ← Nat.mod_add_mod,
      Nat.mod_eq_of_lt (by omega)]
    omega

/-- At the loop end the path returns to loop start. -/
theorem loopIndex_return (o : Nat) : loopIndex first last (o + (last - loopIndex first last o)) = first := by
  have hm := Nat.mod_lt (o - first) (Nat.sub_pos_of_lt h)
  unfold loopIndex
  split
  next ho =>
    rw [show o + (last - o) = last by omega, if_neg (Nat.lt_irrefl last), Nat.mod_self]
    rfl
  next ho =>
    generalize hr : (o - first) % (last - first) = m at hm ⊢
    rw [if_neg (by omega), show o + (last - (first + m)) - first = o - first + (last - first - m) by omega, ← Nat.mod_add_mod, hr,
      show m + (last - first - m) = last - first by omega, Nat.mod_self]
    rfl

/-- A loop is contiguous in flash up to its next return, and jumps there. -/
theorem loopIndex_run (o n : Nat) :
    (∀ j, j < min n (last - loopIndex first last o) → loopIndex first last (o + j) = loopIndex first last o + j) ∧
    (min n (last - loopIndex first last o) < n →
      loopIndex first last (o + min n (last - loopIndex first last o)) ≠
        loopIndex first last o + min n (last - loopIndex first last o)) := by
  have hlt := loopIndex_lt h o
  refine ⟨fun j hj => loopIndex_add h (by omega), fun hn => ?_⟩
  rw [show min n (last - loopIndex first last o) = last - loopIndex first last o by omega, loopIndex_return h]
  omega

end

/-! ## A path (R8 to R10) -/

variable {m : PlayMode} {tail : Option Nat}

theorem runLength_le (o n : Nat) : runLength m tail o n ≤ n := by
  unfold runLength
  repeat' split
  all_goals omega

theorem runLength_pos (h : PathFits m tail) (o : Nat) {n : Nat} (hn : 0 < n) : 0 < runLength m tail o n := by
  have hloop : ∀ {a b : Nat}, a < b → 0 < min n (b - loopIndex a b o) := fun {a b} hab => by
    have := loopIndex_lt hab o
    omega
  unfold runLength
  split
  · exact hn
  · exact hloop h
  · exact hloop h.1
  · split
    · exact hn
    · exact hloop h.1

/-- A path whose tail begins at x is a loop before x and goes on without a jump from x (R10). -/
theorem pathIndex_tail (first last x o : Nat) :
    pathIndex (.loopTail first last) (some x) o = if o < x then loopIndex first last o else last + (o - x) := rfl

/-- A path whose tail begins at x, from before x: where the run comes to x it goes through it, since the loop ends there (R10). -/
theorem pathIndex_tail_run {first last x : Nat} (h : PathFits (.loopTail first last) (some x)) (o n : Nat) {k : Nat}
    (hk : k = if x ≤ o + (last - loopIndex first last o) then n else min n (last - loopIndex first last o)) :
    (∀ j, j < k → pathIndex (.loopTail first last) (some x) (o + j) = pathIndex (.loopTail first last) (some x) o + j) ∧
    (k < n → pathIndex (.loopTail first last) (some x) (o + k) ≠ pathIndex (.loopTail first last) (some x) o + k) := by
  obtain ⟨hab, hx⟩ := h
  obtain ⟨hx0, hend⟩ := hx x rfl
  have hlt := loopIndex_lt hab o
  simp only [pathIndex_tail]
  by_cases ho : o < x
  · rw [if_pos ho]
    split at hk
    next hcross =>
      have hlast := loopIndex_add hab (o := o) (j := x - 1 - o) (by omega)
      rw [show o + (x - 1 - o) = x - 1 by omega] at hlast
      refine ⟨fun j _ => ?_, fun hn => absurd hn (by omega)⟩
      split
      · exact loopIndex_add hab (by omega)
      · omega
    next hcross =>
      obtain ⟨hrun, hjump⟩ := loopIndex_run hab o n
      rw [← hk] at hrun hjump
      refine ⟨fun j hj => ?_, fun hn => ?_⟩
      · rw [if_pos (by omega)]
        exact hrun j hj
      · rw [if_pos (by omega)]
        exact hjump hn
  · rw [if_pos (by omega)] at hk
    refine ⟨fun j _ => ?_, fun hn => absurd hn (by omega)⟩
    rw [if_neg (by omega), if_neg ho]
    omega

/-- The frames of a run are contiguous in flash, and after a run that does not come to the end the path jumps (R16). -/
theorem pathIndex_run (h : PathFits m tail) (o n : Nat) :
    (∀ j, j < runLength m tail o n → pathIndex m tail (o + j) = pathIndex m tail o + j) ∧
    (runLength m tail o n < n → pathIndex m tail (o + runLength m tail o n) ≠ pathIndex m tail o + runLength m tail o n) := by
  cases m with
  | oneShot => exact ⟨fun _ _ => rfl, fun hlt => absurd hlt (Nat.lt_irrefl n)⟩
  | loop first last => exact loopIndex_run h o n
  | loopTail first last =>
    cases tail with
    | none => exact loopIndex_run h.1 o n
    | some x => exact pathIndex_tail_run h o n rfl

/-! ## The reads of a chunk (R16) -/

/-- The first read of a chunk begins at the chunk's path offset. -/
theorem readsFrom_first (q : Cue) (tail : Option Nat) (fuel o n : Nat) {x : Read} (h : x ∈ (readsFrom q tail fuel o n).head?) :
    x.first = o ∧ 0 < n := by
  unfold readsFrom at h
  split at h
  · cases h
  · cases h
  · cases h
    exact ⟨rfl, Nat.succ_pos _⟩

/-- The reads of a chunk divide it: by induction on the frames still to be read, one run of the path at a time. -/
theorem readsFrom_divides (q : Cue) (h : PathFits q.mode tail) (fuel o n : Nat) (hn : n ≤ fuel) :
    DividesChunk q tail o n (readsFrom q tail fuel o n) := by
  induction fuel generalizing o n with
  | zero =>
    obtain rfl : n = 0 := by omega
    exact ⟨rfl, nofun, List.IsChain.nil⟩
  | succ fuel ih =>
    cases n with
    | zero => exact ⟨rfl, nofun, List.IsChain.nil⟩
    | succ n =>
      have hle := runLength_le (m := q.mode) (tail := tail) o (n + 1)
      have hpos := runLength_pos h o (n := n + 1) (Nat.succ_pos n)
      obtain ⟨hrun, hjump⟩ := pathIndex_run h o (n + 1)
      unfold readsFrom
      dsimp only
      rw [show max 1 (runLength q.mode tail o (n + 1)) = runLength q.mode tail o (n + 1) by omega]
      generalize runLength q.mode tail o (n + 1) = k at hle hpos hrun hjump
      have hrest := ih (o + k) (n + 1 - k) (by omega)
      refine ⟨?_, ?_, ?_⟩
      · have hsplit : List.range (n + 1) = List.range k ++ (List.range (n + 1 - k)).map (k + ·) := by
          rw [← List.range_add]
          congr 1
          omega
        rw [List.flatMap_cons, hrest.frames, hsplit, List.map_append, List.map_map]
        congr 1
        · apply List.map_congr_left
          intro j hj
          rw [hrun j (List.mem_range.mp hj), Nat.add_mul]
          exact congrArg (Prod.mk _) (Nat.add_assoc _ _ _)
        · apply List.map_congr_left
          intro j _
          simp only [Function.comp_apply, Nat.add_assoc]
      · rintro x (_ | ⟨_, hx⟩)
        · exact ⟨hpos, rfl⟩
        · exact hrest.each x hx
      · rw [List.isChain_cons]
        refine ⟨fun x hx => ?_, hrest.jumps⟩
        obtain ⟨hfirst, hmore⟩ := readsFrom_first q tail _ _ _ hx
        have hlast := hrun (k - 1) (by omega)
        rw [hfirst, show o + k - 1 = o + (k - 1) by omega, hlast, show pathIndex q.mode tail o + (k - 1) + 1 =
          pathIndex q.mode tail o + k by omega]
        exact hjump (by omega)

end Sys2Proof.Machine
end


section
/-! PROOF. A read of the flash link ends (ReadEndLandsOrDropsTheFrames). -/

namespace Sys2Proof.Machine

set_option Elab.async false

variable {s : State}

/-! ## Priming (R19) -/

theorem belowEnd_eq_false {o : Nat} {e : Option Nat} : belowEnd o e = false ↔ ∃ n, e = some n ∧ n ≤ o := by
  cases e <;> simp [belowEnd]

/-- A PRIMING voice has completed priming: it holds 256 frames, or its whole path (R19). -/
theorem Voice.primed_iff (w : Voice) (q : Cue) :
    w.primed q = true ↔
      w.state = .priming ∧ (256 ≤ w.buffer.length ∨ ∃ n, w.pathEnd q = some n ∧ n ≤ w.playOffset + w.buffer.length) := by
  simp only [Voice.primed, Bool.and_eq_true, Bool.or_eq_true, decide_eq_true_eq, Bool.not_eq_true', belowEnd_eq_false]
  exact Iff.rfl

/-- A voice after FCH's test for priming completion (R19, R54). -/
def Voice.tested (w : Voice) (q : Cue) : Voice := if w.primed q then w.toSounding q else w

/-- The test touches the state, the target, V and its counter only. -/
theorem Voice.tested_frame (w : Voice) (q : Cue) :
    w.tested q =
      { w with
        state := (w.tested q).state
        target := (w.tested q).target
        vCount := (w.tested q).vCount
        vDone := (w.tested q).vDone
        level := (w.tested q).level } := by
  unfold Voice.tested
  split <;> rfl

theorem Voice.tested_of_not_priming {w : Voice} (q : Cue) (h : w.state ≠ .priming) : w.tested q = w :=
  if_neg fun hp => h ((w.primed_iff q).mp hp).1

/-- Two writes of one voice come to the second. -/
theorem State.setVoice_setVoice (v : Fin 8) (w x : Voice) : (s.setVoice v w).setVoice v x = s.setVoice v x := by
  have h : (s.voices.set v w).set v x = s.voices.set v x := by
    apply Table.ext_get
    intro i
    rw [Table.get_set, Table.get_set, Table.get_set]
    split <;> rfl
  exact congrArg (fun t => { s with voices := t }) h

theorem State.testPrimed_setVoice (v : Fin 8) (w : Voice) :
    (s.setVoice v w).testPrimed v = s.setVoice v (w.tested (s.cueOf w)) := by
  have hq : (s.setVoice v w).cueOf w = s.cueOf w := rfl
  unfold State.testPrimed Voice.tested
  dsimp only
  rw [State.voice_setVoice_self, hq, State.setVoice_setVoice]
  split <;> rfl

/-! ## Landing (R18) -/

/-- A voice whose buffer frames have joined, tested for priming completion (R18, R19). -/
def Voice.landed (w : Voice) (q : Cue) (frames : List SampleFrame) : Voice :=
  { w with buffer := w.buffer ++ frames }.tested q

/-- The voices after a read of transfer t has brought these bytes: those of its slot's voice land, or nothing does (R18). -/
def State.landedVoices (s : State) (t : Transfer) (r : Read) (bytes : List Byte) : Table 8 Voice :=
  if lands s t r then
    s.voices.set t.slot
      ((s.voice t.slot).landed (s.cueOf (s.voice t.slot)) (landing (s.voice t.slot) r (framesOf t.format bytes)))
  else s.voices

theorem State.land_eq (v : Fin 8) (r : Read) (frames : List SampleFrame) :
    s.land v r frames =
      s.setVoice v ((s.voice v).landed (s.cueOf (s.voice v)) (landing (s.voice v) r frames)) :=
  State.testPrimed_setVoice v _

theorem lands_iff (t : Transfer) (r : Read) :
    lands s t r = true ↔ t.abandon = false ∧ r.drop = false ∧ (s.voice t.slot).generation = t.generation := by
  simp [lands, and_assoc]

/-- The station after a read of transfer t has ended, before the arbiter is consulted. -/
def State.readEnded (s : State) (t : Transfer) (r : Read) (rest : List Read) (bytes : List Byte) : State :=
  { s with voices := s.landedVoices t r bytes, link := afterRead t rest }

/-- A READ_END of the length that the read under way brings. -/
theorem execReadEnd_eq {t : Transfer} {r : Read} {rest : List Read} {bytes : List Byte} (hm : s.mode ≠ .loading)
    (hl : s.link = some t) (hr : t.reads = r :: rest) (hb : bytes.length = r.count * t.format.bytes) :
    execReadEnd bytes s = .next (s.readEnded t r rest bytes).arbitrate := by
  rw [execReadEnd_of_link hm hl hr hb]
  unfold State.readEnded State.landedVoices
  split
  · rw [State.land_eq]
    rfl
  · rfl

section
variable (t : Transfer) (r : Read) (rest : List Read) (bytes : List Byte)

theorem State.readEnded_voice_ne {v : Fin 8} (h : v ≠ t.slot) : (s.readEnded t r rest bytes).voice v = s.voice v := by
  unfold State.readEnded State.landedVoices State.voice
  dsimp only
  split
  · rw [Table.get_set_ne _ _ (Ne.symm h)]
  · rfl

theorem State.readEnded_voice_landed (h : lands s t r = true) :
    (s.readEnded t r rest bytes).voice t.slot =
      (s.voice t.slot).landed (s.cueOf (s.voice t.slot)) (landing (s.voice t.slot) r (framesOf t.format bytes)) := by
  unfold State.readEnded State.landedVoices
  rw [if_pos h]
  exact Table.get_set_self _ _ _

theorem State.readEnded_voice_dropped (h : lands s t r = false) (v : Fin 8) : (s.readEnded t r rest bytes).voice v = s.voice v := by
  unfold State.readEnded State.landedVoices
  rw [if_neg (by rw [h]; exact Bool.false_ne_true)]
  rfl

/-- What the end of a read leaves of a voice: its use, its cue, its path and its place on it. -/
theorem State.readEnded_voice_path (v : Fin 8) :
    ((s.readEnded t r rest bytes).voice v).generation = (s.voice v).generation ∧
    ((s.readEnded t r rest bytes).voice v).cue = (s.voice v).cue ∧
    ((s.readEnded t r rest bytes).voice v).tail = (s.voice v).tail ∧
    ((s.readEnded t r rest bytes).voice v).fetchOffset = (s.voice v).fetchOffset := by
  cases hl : lands s t r with
  | false =>
    rw [State.readEnded_voice_dropped _ _ _ _ hl]
    exact ⟨rfl, rfl, rfl, rfl⟩
  | true =>
    by_cases hv : v = t.slot
    · subst hv
      rw [State.readEnded_voice_landed _ _ _ _ hl, Voice.landed, Voice.tested_frame]
      exact ⟨rfl, rfl, rfl, rfl⟩
    · rw [State.readEnded_voice_ne _ _ _ _ hv]
      exact ⟨rfl, rfl, rfl, rfl⟩

end

/-! ## The link after a read (R17) -/

theorem afterRead_next {t : Transfer} {rest a b : List Read} {x : Read} (ht : t.abandon = false) (h : rest = a ++ x :: b)
    (ha : ∀ y ∈ a, y.drop = true) (hx : x.drop = false) : afterRead t rest = some { t with reads := x :: b } := by
  have hrem : remaining t rest = x :: b := by
    unfold remaining
    rw [if_neg (by rw [ht]; exact Bool.false_ne_true), h, List.dropWhile_append_of_pos ha]
    exact List.dropWhile_cons_of_neg (by rw [hx]; exact Bool.false_ne_true)
  unfold afterRead
  rw [hrem]

theorem afterRead_idle {t : Transfer} {rest : List Read} (h : t.abandon = true ∨ ∀ y ∈ rest, y.drop = true) :
    afterRead t rest = none := by
  have hrem : remaining t rest = [] := by
    unfold remaining
    split
    · rfl
    next ha =>
      rcases h with h | h
      · exact absurd h ha
      · exact List.dropWhile_eq_nil_iff.mpr h
  unfold afterRead
  rw [hrem]

/-! ## The arbiter (R15, R16) -/

theorem State.arbitrate_of_busy {t : Transfer} (h : s.link = some t) : s.arbitrate = s := by
  simp [State.arbitrate, h]

theorem State.arbitrate_of_no_grantee (h : grantee s = none) : s.arbitrate = s := by
  unfold State.arbitrate
  rw [h]
  split <;> rfl

theorem State.arbitrate_of_grantee {v : Fin 8} (hm : s.mode ≠ .loading) (hl : s.link = none) (h : grantee s = some v) :
    s.arbitrate = s.grant v := by
  simp [State.arbitrate, State.isLoading, hm, hl, h]

theorem grantee_eq_none (h : ∀ v, (s.voice v).needsChunk (s.cueOf (s.voice v)) = false) : grantee s = none := by
  unfold grantee
  rw [List.filter_eq_nil_iff.mpr fun v _ => by rw [h v]; exact Bool.false_ne_true]

/-- Of slots in ascending order the arbiter's comparison finds the one of fewest frames, the lowest of several. -/
theorem foldl_fewerFrames {v : Fin 8} (l : List (Fin 8)) (x : Fin 8) (hsorted : (x :: l).Pairwise (· < ·)) (hmem : v ∈ x :: l)
    (hbest : ∀ y ∈ x :: l, y ≠ v →
      (s.voice v).buffer.length < (s.voice y).buffer.length ∨
        (s.voice v).buffer.length = (s.voice y).buffer.length ∧ v < y) :
    l.foldl (fewerFrames s) x = v := by
  induction l generalizing x with
  | nil => exact (List.mem_singleton.mp hmem).symm
  | cons y l ih =>
    rw [List.pairwise_cons] at hsorted
    obtain ⟨hx, hl⟩ := hsorted
    have hxy : x < y := hx y List.mem_cons_self
    rw [List.foldl_cons]
    by_cases hfew : (s.voice y).buffer.length < (s.voice x).buffer.length
    · have hxv : x ≠ v := by
        rintro rfl
        rcases hbest y (by simp) hxy.ne' with h | h <;> omega
      rw [fewerFrames, if_pos hfew]
      exact ih y hl ((List.mem_cons.mp hmem).resolve_left hxv.symm) fun z hz => hbest z (List.mem_cons_of_mem x hz)
    · have hyv : y ≠ v := by
        rintro rfl
        rcases hbest x (by simp) hxy.ne with h | ⟨-, h⟩
        · exact hfew h
        · exact absurd h (not_lt_of_gt hxy)
      rw [fewerFrames, if_neg hfew]
      refine ih x (List.pairwise_cons.mpr ⟨fun z hz => hx z (List.mem_cons_of_mem y hz), (List.pairwise_cons.mp hl).2⟩) ?_ ?_
      · rcases List.mem_cons.mp hmem with rfl | hmem
        · exact List.mem_cons_self
        · exact List.mem_cons_of_mem x ((List.mem_cons.mp hmem).resolve_left hyv.symm)
      · intro z hz
        rcases List.mem_cons.mp hz with rfl | hz
        · exact hbest z List.mem_cons_self
        · exact hbest z (List.mem_cons_of_mem x (List.mem_cons_of_mem y hz))

theorem grantee_eq_some {v : Fin 8} (hneeds : (s.voice v).needsChunk (s.cueOf (s.voice v)) = true)
    (hfirst : ∀ x, x ≠ v → (s.voice x).needsChunk (s.cueOf (s.voice x)) = true →
      (s.voice v).buffer.length < (s.voice x).buffer.length ∨
        (s.voice v).buffer.length = (s.voice x).buffer.length ∧ v < x) : grantee s = some v := by
  have hsorted : slots.Pairwise (· < ·) := by decide
  have hmem : v ∈ slots.filter fun u => (s.voice u).needsChunk (s.cueOf (s.voice u)) :=
    List.mem_filter.mpr ⟨mem_slots v, hneeds⟩
  have hall : ∀ y ∈ slots.filter fun u => (s.voice u).needsChunk (s.cueOf (s.voice u)), y ≠ v → _ :=
    fun y hy hne => hfirst y hne (List.mem_filter.mp hy).2
  unfold grantee
  split
  next he =>
    rw [he] at hmem
    cases hmem
  next x rest he =>
    rw [he] at hmem hall
    exact congrArg some (foldl_fewerFrames rest x (he ▸ hsorted.sublist List.filter_sublist) hmem hall)

/-- The frames of the next chunk (R16): 256, or all that are left of the path. -/
theorem chunkSize_eq (w : Voice) (q : Cue) :
    (w.pathEnd q = none → chunkSize w q = 256) ∧ ∀ m, w.pathEnd q = some m → chunkSize w q = min 256 (m - w.fetchOffset) := by
  unfold chunkSize
  exact ⟨fun h => by rw [h]; rfl, fun m h => by rw [h]; rfl⟩

/-- The arbiter leaves all of a voice but its fetch offset. -/
theorem State.arbitrate_voice (v : Fin 8) : SameButFetch (s.voice v) (s.arbitrate.voice v) := by
  obtain ⟨vs, k, he, hvs⟩ := s.arbitrate_eq
  obtain ⟨f, -, hv⟩ := hvs v
  have hu : s.arbitrate.voice v = { s.voice v with fetchOffset := f } := by
    rw [he]
    exact hv
  unfold SameButFetch
  rw [hu]

theorem State.arbitrate_kept : Kept s s.arbitrate ∧ s.arbitrate.queue = s.queue ∧ s.arbitrate.lines = s.lines := by
  obtain ⟨vs, k, he, -⟩ := s.arbitrate_eq
  rw [he]
  exact ⟨⟨rfl, rfl, rfl, rfl, rfl, rfl, rfl, rfl, rfl, rfl, rfl, rfl, rfl, rfl, rfl, rfl, rfl, rfl, rfl⟩, rfl, rfl⟩

/-! ## The voice of the read (R18, R19, R54) -/

/-- A landed voice: its frames join its buffer, and it is PRIMING or SOUNDING as R19 says. -/
theorem Voice.landed_spec (w : Voice) (q : Cue) (frames : List SampleFrame) :
    (w.landed q frames).buffer = w.buffer ++ frames ∧ (w.landed q frames).playOffset = w.playOffset ∧
    (w.landed q frames).cue = w.cue ∧
    (w.state ≠ .priming → w.landed q frames = { w with buffer := w.buffer ++ frames }) ∧
    (w.state = .priming →
      (256 ≤ (w.buffer ++ frames).length ∨
          (∃ n, w.pathEnd q = some n ∧ n ≤ w.playOffset + (w.buffer ++ frames).length) →
        w.landed q frames = { w with buffer := w.buffer ++ frames }.toSounding q) ∧
      ((w.buffer ++ frames).length < 256 →
        (∀ n, w.pathEnd q = some n → w.playOffset + (w.buffer ++ frames).length < n) →
        w.landed q frames = { w with buffer := w.buffer ++ frames })) := by
  have hprimed := Voice.primed_iff { w with buffer := w.buffer ++ frames } q
  unfold Voice.landed
  refine ⟨by rw [Voice.tested_frame], by rw [Voice.tested_frame], by rw [Voice.tested_frame],
    fun h => Voice.tested_of_not_priming q h, fun h => ⟨fun hfull => ?_, fun hlen hpath => ?_⟩⟩
  · exact if_pos (hprimed.mpr ⟨h, hfull⟩)
  · refine if_neg fun hp => ?_
    rcases (hprimed.mp hp).2 with h256 | ⟨n, hn, hle⟩
    · exact absurd h256 (Nat.not_le.mpr hlen)
    · exact absurd hle (Nat.not_le.mpr (hpath n hn))

/-- What `SameButFetch` says of the fields it does not name. -/
theorem SameButFetch.fields {w u : Voice} (h : SameButFetch w u) :
    u.buffer = w.buffer ∧ u.playOffset = w.playOffset ∧ u.cue = w.cue ∧ u.state = w.state ∧ u.target = w.target ∧
      u.level = w.level ∧ u.vCount = w.vCount := by
  unfold SameButFetch at h
  rw [h]
  exact ⟨rfl, rfl, rfl, rfl, rfl, rfl, rfl⟩

/-- A grant forms the transfer of the voice's next chunk (R16). -/
theorem State.grant_spec (v : Fin 8) :
    ∃ g n, (s.grant v).link = some g ∧ g.slot = v ∧ g.generation = (s.voice v).generation ∧ g.abandon = false ∧
      n = chunkSize (s.voice v) (s.cueOf (s.voice v)) ∧ ((s.grant v).voice v).fetchOffset = (s.voice v).fetchOffset + n ∧
      (∀ x, x ≠ v → ((s.grant v).voice x).fetchOffset = (s.voice x).fetchOffset) ∧
      g.reads = readsFrom (s.cueOf (s.voice v)) (s.voice v).tail n (s.voice v).fetchOffset n := by
  refine ⟨_, _, rfl, rfl, rfl, rfl, rfl, ?_, fun x hx => ?_, rfl⟩
  · exact congrArg Voice.fetchOffset (s.voice_setVoice_self v _)
  · exact congrArg Voice.fetchOffset (s.voice_setVoice_ne _ (Ne.symm hx))

/-- Voice v of s has been granted the link in u: the transfer of its next chunk is formed, and its fetch offset is advanced (R15, R16). -/
def Grants (s u : State) (v : Fin 8) : Prop :=
  let w := s.voice v
  let q := s.cueOf w
  ∃ g n, u.link = some g ∧ g.slot = v ∧ g.generation = w.generation ∧ g.abandon = false ∧
    (w.pathEnd q = none → n = 256) ∧ (∀ m, w.pathEnd q = some m → n = min 256 (m - w.fetchOffset)) ∧
    (u.voice v).fetchOffset = w.fetchOffset + n ∧
    (∀ x, x ≠ v → (u.voice x).fetchOffset = (s.voice x).fetchOffset) ∧
    (PathFits q.mode w.tail → DividesChunk q w.tail w.fetchOffset n g.reads)

theorem State.arbitrate_grants {v : Fin 8} (hm : s.mode ≠ .loading) (hl : s.link = none) (hv : IsGranted s s.voice v) :
    Grants s s.arbitrate v := by
  obtain ⟨g, n, hg, hslot, hgen, habandon, hn, hfetch, hothers, hreads⟩ := State.grant_spec (s := s) v
  obtain ⟨hall, hsome⟩ := chunkSize_eq (s.voice v) (s.cueOf (s.voice v))
  rw [← hn] at hall hsome
  rw [State.arbitrate_of_grantee hm hl (grantee_eq_some hv.needs hv.first)]
  refine ⟨g, n, hg, hslot, hgen, habandon, hall, hsome, hfetch, hothers, fun hfit => ?_⟩
  rw [hreads]
  exact readsFrom_divides _ hfit n _ n (Nat.le_refl n)

/-- A grant is a matter of the voices' uses, cues, paths and fetch offsets. -/
theorem Grants.of_path {z u : State} {v : Fin 8} (h : Grants z u v)
    (hcue : z.cueOf (z.voice v) = s.cueOf (s.voice v)) (hgen : (z.voice v).generation = (s.voice v).generation)
    (htail : (z.voice v).tail = (s.voice v).tail) (hfetch : ∀ x, (z.voice x).fetchOffset = (s.voice x).fetchOffset) :
    Grants s u v := by
  have hend : ∀ q, (z.voice v).pathEnd q = (s.voice v).pathEnd q := fun q => by
    unfold Voice.pathEnd
    rw [htail]
  unfold Grants at h
  dsimp only at h
  simp only [hcue, hgen, htail, hfetch, hend] at h
  exact h

/-- What landing gives the read's voice, whatever the arbiter then does with its fetch offset (R18, R19, R54). -/
theorem Voice.landed_outcome {w x : Voice} {q : Cue} {frames : List SampleFrame} (h : SameButFetch (w.landed q frames) x) :
    x.buffer = w.buffer ++ frames ∧ x.playOffset = w.playOffset ∧ x.cue = w.cue ∧
      (w.state ≠ .priming → SameButFetch { w with buffer := w.buffer ++ frames } x) ∧
      (w.state = .priming →
        (256 ≤ x.buffer.length ∨ (∃ n, w.pathEnd q = some n ∧ n ≤ w.playOffset + x.buffer.length) →
          x.state = .sounding ∧ x.target = q.level ∧ (q.fadeIn = 0 → x.level = q.level) ∧
            (q.fadeIn ≠ 0 → x.level = w.level) ∧ x.vCount = 0) ∧
        (x.buffer.length < 256 → (∀ n, w.pathEnd q = some n → w.playOffset + x.buffer.length < n) →
          x.state = .priming ∧ x.level = w.level)) := by
  obtain ⟨hbuffer, hplay, hcue, hstate, htarget, hlevel, hcount⟩ := h.fields
  obtain ⟨lbuffer, lplay, lcue, lother, lpriming⟩ := w.landed_spec q frames
  rw [hstate, htarget, hlevel, hcount, hbuffer, lbuffer]
  refine ⟨rfl, hplay.trans lplay, hcue.trans lcue, fun hw => ?_, fun hw => ⟨fun hfull => ?_, fun hlen hpath => ?_⟩⟩
  · rw [← lother hw]
    exact h
  · rw [(lpriming hw).1 hfull]
    exact ⟨rfl, rfl, fun h0 => if_pos h0, fun h0 => if_neg h0, rfl⟩
  · rw [(lpriming hw).2 hlen hpath]
    exact ⟨hw, rfl⟩

theorem lands_eq_false {t : Transfer} {r : Read}
    (h : t.abandon = true ∨ r.drop = true ∨ (s.voice t.slot).generation ≠ t.generation) : lands s t r = false := by
  rw [Bool.eq_false_iff, ne_eq, lands_iff]
  rintro ⟨habandon, hdrop, hgen⟩
  rw [habandon, hdrop] at h
  exact (h.resolve_left nofun).resolve_left nofun hgen

/-- Settles O24: the frames land as `Voice.landed` says, and the link goes on to the next read or to the arbiter. -/
theorem readEndLandsOrDropsTheFrames : Obligations.ReadEndLandsOrDropsTheFrames := by
  intro s t r rest bytes hm hl hr hb
  have hpath := State.readEnded_voice_path (s := s) t r rest bytes
  have hfetch : ∀ v, ((s.readEnded t r rest bytes).voice v).fetchOffset = (s.voice v).fetchOffset := fun v => (hpath v).2.2.2
  have hvoice : ∀ v, SameButFetch ((s.readEnded t r rest bytes).voice v) ((s.readEnded t r rest bytes).arbitrate.voice v) :=
    fun v => State.arbitrate_voice v
  obtain ⟨hkept, hqueue, hlines⟩ := State.arbitrate_kept (s := s.readEnded t r rest bytes)
  have hkept' : Kept s (s.readEnded t r rest bytes) :=
    ⟨rfl, rfl, rfl, rfl, rfl, rfl, rfl, rfl, rfl, rfl, rfl, rfl, rfl, rfl, rfl, rfl, rfl, rfl, rfl⟩
  refine ⟨State.flashRead?_of_link hm hl hr, _, execReadEnd_eq hm hl hr hb, hkept'.trans hkept, hqueue, hlines, fun v hv => ?_,
    fun ha hd hg => ?_, fun hno => ?_, fun ha a x b hrest hdrop hx => ?_, fun hidle => ?_⟩
  · have h := hvoice v
    rw [State.readEnded_voice_ne _ _ _ _ hv] at h
    exact h
  · have h := hvoice t.slot
    rw [State.readEnded_voice_landed _ _ _ _ ((lands_iff t r).mpr ⟨ha, hd, hg⟩)] at h
    exact Voice.landed_outcome h
  · have h := hvoice t.slot
    rw [State.readEnded_voice_dropped _ _ _ _ (lands_eq_false hno)] at h
    exact h
  · have hlink : (s.readEnded t r rest bytes).link = some { t with reads := x :: b } := afterRead_next ha hrest hdrop hx
    rw [State.arbitrate_of_busy hlink]
    exact ⟨hlink, hfetch⟩
  · have hlink : (s.readEnded t r rest bytes).link = none := afterRead_idle hidle
    intro idle
    have hidle : idle = (s.readEnded t r rest bytes).voice := by
      funext v
      have h : (s.readEnded t r rest bytes).arbitrate.voice v = _ := hvoice v
      change { (s.readEnded t r rest bytes).arbitrate.voice v with fetchOffset := (s.voice v).fetchOffset } = _
      rw [h, ← hfetch v]
    have hcue : ∀ v, (s.readEnded t r rest bytes).cueOf ((s.readEnded t r rest bytes).voice v) = s.cueOf (s.voice v) := by
      intro v
      obtain ⟨-, hc, -, -⟩ := hpath v
      unfold State.cueOf
      rw [hc]
      rfl
    rw [hidle]
    refine ⟨fun hnone => ?_, fun v hv => ?_⟩
    · rw [State.arbitrate_of_no_grantee (grantee_eq_none fun v => by rw [hcue]; exact hnone v)]
      exact ⟨hlink, hfetch⟩
    · obtain ⟨hgen, -, htail, -⟩ := hpath v
      have hgranted : IsGranted (s.readEnded t r rest bytes) (s.readEnded t r rest bytes).voice v :=
        ⟨by rw [hcue]; exact hv.needs, fun x hx hneeds => hv.first x hx (by rw [← hcue]; exact hneeds)⟩
      exact (State.arbitrate_grants (s := s.readEnded t r rest bytes) hm hlink hgranted).of_path (hcue v) hgen htail hfetch

end Sys2Proof.Machine
end

section
/-! PROOF. What the offers that a freeing makes touch: the queue and the flags, and the announce state of a voice whose START is evicted
(R66, R88, R145 to R149). -/

namespace Sys2Proof.Machine

set_option Elab.async false

/-! ## The loss of a START, and the CLAIMs of a queue -/

/-- The same voice, but that a START of it that was evicted leaves it LOCAL (R65, R149). -/
structure LosesStart (w u : Voice) : Prop where
  rest : u = { w with announce := u.announce }
  announce : u.announce = w.announce ∨ w.announce = .queued ∧ u.announce = .localOnly

theorem LosesStart.refl (w : Voice) : LosesStart w w := ⟨rfl, .inl rfl⟩

theorem LosesStart.trans {w x u : Voice} (h : LosesStart w x) (k : LosesStart x u) : LosesStart w u := by
  refine ⟨by rw [k.rest, h.rest], ?_⟩
  rcases k.announce with hk | ⟨hk, hu⟩
  · rw [hk]
    exact h.announce
  · rcases h.announce with hx | ⟨-, hx⟩
    · exact .inr ⟨hx ▸ hk, hu⟩
    · rw [hx] at hk
      cases hk

theorem LosesStart.untouched {w u : Voice} (h : LosesStart w u) : Untouched w u := ⟨by rw [h.rest], h.announce⟩

theorem LosesStart.eq_of_not_queued {w u : Voice} (h : LosesStart w u) (hw : w.announce ≠ .queued) : u = w := by
  rcases h.announce with ha | ⟨ha, -⟩
  · rw [h.rest, ha]
  · exact absurd ha hw

/-- The CLAIM entries of a queue, in its order. -/
def claimsIn (q : List Entry) : List Entry := q.filter fun e => e.frame.isClaim

theorem isClaim_of_isClaimOf {g : Nat} {f : Frame} (h : f.isClaimOf g = true) : f.isClaim = true := by
  cases f <;> first | rfl | cases h

theorem claimsIn_takeOut {q : List Entry} {p : Frame → Bool} (hp : ∀ f, p f = true → f.isClaim = false) :
    claimsIn (q.filter fun e => !(e.waiting && p e.frame)) = claimsIn q := by
  unfold claimsIn
  rw [List.filter_filter]
  apply List.filter_congr
  intro e _
  cases hc : e.frame.isClaim with
  | false => rfl
  | true =>
    have : p e.frame = false := by
      by_contra hn
      rw [hp _ (by simpa using hn)] at hc
      cases hc
    simp [this]

theorem claimsIn_placed {q q' : List Entry} {e : Entry} (h : Placed q q' e) (he : e.frame.isClaim = false) :
    claimsIn q' = claimsIn q := by
  obtain ⟨a, b, rfl, rfl, -, -⟩ := h
  unfold claimsIn
  rw [List.filter_append, List.filter_append, List.filter_cons_of_neg (by rw [he]; exact Bool.false_ne_true)]

/-- Eviction takes the last waiting entry out, and leaves the order of the others (R148). -/
theorem dropLastWaiting_of_victim {k : Nat} {q : List Entry} {x : Entry} (h : victimOf k q = some x) :
    ∃ a b, q = a ++ x :: b ∧ dropLastWaiting q = a ++ b := by
  have hlast : (q.filter fun e => e.waiting).getLast? = some x := by
    unfold victimOf at h
    split at h
    next e he =>
      split at h
      · rw [he, ← h]
      · cases h
    · cases h
  obtain ⟨ys, hys⟩ := List.getLast?_eq_some_iff.mp hlast
  have hrev : q.reverse.filter (fun e => e.waiting) = x :: ys.reverse := by
    rw [List.filter_reverse, hys, List.reverse_append]
    rfl
  obtain ⟨l₁, l₂, hq, hno, hx, -⟩ := List.filter_eq_cons_iff.mp hrev
  have hfind : q.reverse.findIdx? (fun e => e.waiting) = some l₁.length := by
    rw [hq, List.findIdx?_append, List.findIdx?_eq_none_iff.mpr fun e he => Bool.eq_false_iff.mpr (hno e he), List.findIdx?_cons, hx]
    simp
  refine ⟨l₂.reverse, l₁.reverse, ?_, ?_⟩
  · rw [← List.reverse_reverse q, hq]
    simp
  · unfold dropLastWaiting
    rw [hfind]
    dsimp only
    rw [hq, List.eraseIdx_append_of_length_le (Nat.le_refl _), Nat.sub_self, List.eraseIdx_cons_zero, List.reverse_append]

theorem claimsIn_dropLastWaiting {k : Nat} {q : List Entry} {x : Entry} (h : victimOf k q = some x) :
    claimsIn (dropLastWaiting q) = claimsIn q := by
  obtain ⟨a, b, hq, hd⟩ := dropLastWaiting_of_victim h
  have hx : x.frame.isClaim = false := beq_false_of_ne (Nat.ne_of_gt (Nat.zero_lt_of_lt (kind_of_victimOf h)))
  rw [hd, hq]
  unfold claimsIn
  rw [List.filter_append, List.filter_append, List.filter_cons_of_neg (by rw [hx]; exact Bool.false_ne_true)]

/-! ## What an announcement touches -/

/-- From s to t only frames have been offered or taken back and groups have changed: no CLAIM has come or gone, and of the voices a START
that was evicted leaves one LOCAL (R66, R88, R145 to R149). -/
structure Announces (s t : State) : Prop where
  frame : t = { s with voices := t.voices, groups := t.groups, queue := t.queue, owedEnd := t.owedEnd, flags := t.flags }
  voice : ∀ u, LosesStart (s.voice u) (t.voice u)
  claims : claimsIn t.queue = claimsIn s.queue

variable {s t u : State}

theorem Announces.refl (s : State) : Announces s s := ⟨rfl, fun _ => LosesStart.refl _, rfl⟩

theorem Announces.trans (h : Announces s t) (k : Announces t u) : Announces s u where
  frame := by rw [k.frame, h.frame]
  voice := fun v => (h.voice v).trans (k.voice v)
  claims := k.claims.trans h.claims

theorem Announces.passesDue (h : Announces s t) : t.passesDue = s.passesDue := by rw [h.frame]

theorem loseStart_announces (s : State) (tag : Nat) : Announces s (s.loseStart tag) := by
  unfold State.loseStart
  dsimp only
  split
  next h =>
    refine ⟨rfl, fun u => ?_, rfl⟩
    rw [State.voice_setVoice]
    split
    next hu => exact hu ▸ ⟨rfl, .inr ⟨h.2, rfl⟩⟩
    · exact LosesStart.refl _
  · exact Announces.refl s

theorem evicted_announces (s : State) (f : Frame) : Announces s (s.evicted f) := by
  cases f
  case start => exact loseStart_announces s _
  all_goals exact Announces.refl s

theorem place_announces (s : State) (f : Frame) (key : Nat) (hf : f.isClaim = false) : Announces s (s.place f key).1 := by
  rcases place_cases (s := s) f key with ⟨_, e⟩ | ⟨_, x, hx, e⟩ | ⟨_, _, e⟩ <;> rw [e]
  · exact ⟨rfl, fun _ => LosesStart.refl _, claimsIn_placed (placeEntry_placed (newEntry f key) s.queue) hf⟩
  · have hplaced : Announces s ({ s with queue := placeEntry (newEntry f key) (dropLastWaiting s.queue) }.latch .txqDrop) :=
      ⟨rfl, fun _ => LosesStart.refl _, (claimsIn_placed (placeEntry_placed _ _) hf).trans (claimsIn_dropLastWaiting hx)⟩
    exact hplaced.trans (evicted_announces _ x.frame)
  · exact ⟨rfl, fun _ => LosesStart.refl _, rfl⟩

theorem takeOut_announces (s : State) {p : Frame → Bool} (hp : ∀ f, p f = true → f.isClaim = false) : Announces s (s.takeOut p) :=
  ⟨rfl, fun _ => LosesStart.refl _, claimsIn_takeOut hp⟩

theorem isClaim_of_isStartOf {tag : Nat} {f : Frame} (h : f.isStartOf tag = true) : f.isClaim = false := by
  cases f <;> first | rfl | cases h

theorem offer_end_announces (s : State) (t g : Byte) : Announces s (s.offer (.endFrame t g)) := by
  unfold State.offer State.offerKey
  dsimp only
  split
  · exact takeOut_announces s fun f => isClaim_of_isStartOf
  · exact place_announces s _ _ rfl

theorem queueRelease_announces (s : State) (g : Nat) : Announces s (s.queueRelease g) := by
  unfold State.queueRelease
  split
  · exact place_announces s _ _ rfl
  · exact Announces.refl s

theorem settleAnnounce_announces (s : State) (a : Announce) (tag group : Nat) : Announces s (s.settleAnnounce a tag group) := by
  have howed : ∀ o, Announces s { s with owedEnd := o } := fun o => ⟨rfl, fun _ => LosesStart.refl _, rfl⟩
  unfold State.settleAnnounce
  split
  · exact Announces.refl s
  · split
    · exact Announces.refl s
    · split
      · exact howed _
      · exact offer_end_announces s _ _
  · split
    · exact howed _
    · split
      · exact offer_end_announces s _ _
      · exact Announces.refl s

theorem setGroup_announces (s : State) (i : Fin 15) (g : GroupView) : Announces s (s.setGroup i g) :=
  ⟨rfl, fun _ => LosesStart.refl _, rfl⟩

theorem dropHolding_announces (s : State) (v : Fin 8) (tag : Nat) (i : Fin 15) : Announces s (s.dropHolding v tag i) := by
  unfold State.dropHolding
  dsimp only
  split
  · split
    · exact setGroup_announces s i _
    · exact (setGroup_announces s i _).trans (queueRelease_announces _ _)
  · exact Announces.refl s

/-! ## Entry into FREE (R63) -/

/-- The station with voice v FREE, before its announce state is settled and its groups are left (R63). -/
def State.withFreed (s : State) (v : Fin 8) : State :=
  { (s.clearOwedFor (s.voice v)).setVoice v (Voice.freed (s.voice v).generation) with
    releasing := s.releasing.filter fun x => decide (x ≠ v)
    link := abandonFor v s.link }

/-- The announce state of voice v is settled as it enters FREE (R66). -/
def State.freedSettled (s : State) (v : Fin 8) : State :=
  (s.withFreed v).settleAnnounce (s.voice v).announce (s.tag v) (s.cueOf (s.voice v)).group

/-- Voice v has entered FREE, its groups left and no pass owed for it yet (R85, R88). -/
def State.freedLeft (s : State) (v : Fin 8) : State :=
  inOrder (fun i t => State.dropHolding t v (s.tag v) i) groupPlaces (s.freedSettled v)

theorem State.freedLeft_announces (s : State) (v : Fin 8) : Announces (s.withFreed v) (s.freedLeft v) :=
  inOrder_keeps (P := Announces (s.withFreed v)) (fun i t h => h.trans (dropHolding_announces t v _ i)) groupPlaces
    (settleAnnounce_announces _ _ _ _)

theorem State.clearOwedFor_passesDue (s : State) (w : Voice) : (s.clearOwedFor w).passesDue = s.passesDue := by
  unfold State.clearOwedFor
  split <;> rfl

theorem State.freeVoice_eq (s : State) (v : Fin 8) : s.freeVoice v = { s.freedLeft v with passesDue := s.passesDue + 1 } := by
  have h : (s.freedLeft v).passesDue = s.passesDue := (s.freedLeft_announces v).passesDue.trans (s.clearOwedFor_passesDue _)
  rw [← h]
  rfl

/-- A voice that is not CLAIMING leaves its line's owed-release mark as it is (R30). -/
theorem State.clearOwedFor_of_not_claiming {w : Voice} (h : w.state ≠ .claiming) : s.clearOwedFor w = s := by
  unfold State.clearOwedFor
  split
  next hw _ => exact absurd hw h
  · rfl

theorem State.withFreed_of_not_claiming {v : Fin 8} (h : (s.voice v).state ≠ .claiming) :
    s.withFreed v =
      { s with
        voices := s.voices.set v (Voice.freed (s.voice v).generation)
        releasing := s.releasing.filter fun x => decide (x ≠ v)
        link := abandonFor v s.link } := by
  unfold State.withFreed
  rw [State.clearOwedFor_of_not_claiming h]
  rfl

theorem State.withFreed_voice (s : State) (u v : Fin 8) :
    (s.withFreed v).voice u = if v = u then Voice.freed (s.voice v).generation else s.voice u := by
  have hv : (s.clearOwedFor (s.voice v)).voices = s.voices := by
    unfold State.clearOwedFor
    split <;> rfl
  change ((s.clearOwedFor (s.voice v)).voices.set v _).get u = _
  rw [hv, Table.get_set]
  rfl

/-- The freed slot keeps its generation only; the others keep all but a START that was evicted (R63, R149). -/
theorem State.freedLeft_voice (s : State) (u v : Fin 8) :
    (v = u → (s.freedLeft v).voice u = Voice.freed (s.voice v).generation) ∧
      (v ≠ u → LosesStart (s.voice u) ((s.freedLeft v).voice u)) := by
  have h := (s.freedLeft_announces v).voice u
  rw [State.withFreed_voice] at h
  refine ⟨fun hu => ?_, fun hu => ?_⟩
  · rw [if_pos hu] at h
    exact h.eq_of_not_queued nofun
  · rwa [if_neg hu] at h

end Sys2Proof.Machine
end


section
/-! PROOF. What a freed voice leaves of its groups and of the transmit queue (R66, R69, R85, R88, R146). -/

namespace Sys2Proof.Machine

set_option Elab.async false

variable {s : State}

/-! ## Its announce state (R66, R69) -/

theorem offer_groups (s : State) (f : Frame) : (s.offer f).groups = s.groups ∧ (s.offer f).owedEnd = s.owedEnd := by
  obtain ⟨q, v, g, h⟩ := offerKey_eq (s := s) f s.cfg.number
  unfold State.offer
  rw [h]
  exact ⟨rfl, rfl⟩

theorem settleAnnounce_groups (s : State) (a : Announce) (tag group : Nat) : (s.settleAnnounce a tag group).groups = s.groups := by
  obtain ⟨hoffer, -⟩ := offer_groups s (endFrameOf tag group)
  unfold State.settleAnnounce
  repeat' split
  all_goals first | rfl | exact hoffer

/-- An END takes a waiting START of its tag back (R146). -/
theorem offer_end_cancels (tag g : Byte) (h : s.hasWaiting (Frame.isStartOf tag.toNat) = true) :
    s.offer (.endFrame tag g) = s.takeOut (Frame.isStartOf tag.toNat) := by
  unfold State.offer State.offerKey
  dsimp only
  rw [if_pos h]

/-- An END of a tag that no START in the queue has is placed while there is room (R145). -/
theorem offer_end_placed (tag g : Byte) (h : s.hasFrame (Frame.isStartOf tag.toNat) = false) (hroom : s.hasRoom) :
    Placed s.queue (s.offer (.endFrame tag g)).queue (newEntry (.endFrame tag g) s.cfg.number) := by
  have hno : s.hasWaiting (Frame.isStartOf tag.toNat) = false := by
    simp only [State.hasFrame, State.hasWaiting, List.any_eq_false, Bool.and_eq_true, not_and] at h ⊢
    exact fun e he _ => h e he
  unfold State.offer State.offerKey
  dsimp only
  rw [if_neg (by rw [hno]; exact Bool.false_ne_true), place_of_room _ _ hroom]
  exact placeEntry_placed _ _

/-- A frame that no entry in flight has is taken out of the whole queue where it is taken out of the waiting entries. -/
theorem takeOut_of_not_flying {p : Frame → Bool} (h : s.hasFlying p = false) :
    (s.takeOut p).queue = s.queue.filter fun e => !p e.frame := by
  rw [State.takeOut_queue]
  apply List.filter_congr
  intro e he
  have hf := List.any_eq_false.mp h e he
  unfold Entry.waiting
  cases hi : e.inFlight
  · rfl
  · have : p e.frame = false := by simpa [hi] using hf
    simp [this]

/-- How the announce state of a voice that enters FREE is settled, by its three values (R66, R69, R146). -/
theorem settleAnnounce_spec (s : State) (a : Announce) {tag : Nat} (ht : tag < 256) (group : Nat) :
    let t := s.settleAnnounce a tag group
    (a = .localOnly → t.queue = s.queue ∧ t.owedEnd = s.owedEnd) ∧
    (∀ h, a = .announced h →
      (s.mode ≠ .run → t.queue = s.queue ∧ t.owedEnd = s.owedEnd) ∧
      (s.mode = .run → s.hasRoom → s.hasFrame (Frame.isStartOf tag) = false →
        Placed s.queue t.queue (newEntry (.endFrame (BitVec.ofNat 8 tag) (BitVec.ofNat 8 group)) s.cfg.number) ∧
          t.owedEnd = s.owedEnd)) ∧
    (a = .queued →
      (s.hasFlying (Frame.isStartOf tag) = true → t.queue = s.queue ∧ t.owedEnd = some { tag := tag, group := group }) ∧
      (s.hasFlying (Frame.isStartOf tag) = false → s.hasWaiting (Frame.isStartOf tag) = true →
        t.queue = s.queue.filter (fun e => !e.frame.isStartOf tag) ∧ t.owedEnd = s.owedEnd)) := by
  have htag : (BitVec.ofNat 8 tag).toNat = tag := by simp [Nat.mod_eq_of_lt ht]
  obtain ⟨-, howed⟩ := offer_groups s (endFrameOf tag group)
  intro t
  refine ⟨fun ha => ?_, fun h ha => ⟨fun hm => ?_, fun hm hroom hno => ?_⟩, fun ha => ⟨fun hf => ?_, fun hf hw => ?_⟩⟩ <;>
    subst ha
  · exact ⟨rfl, rfl⟩
  · have ht : t = s := if_pos (by simp [State.isRun, hm])
    rw [ht]
    exact ⟨rfl, rfl⟩
  · have hno' : s.hasFlying (Frame.isStartOf tag) = false := by
      simp only [State.hasFrame, State.hasFlying, List.any_eq_false, Bool.and_eq_true, not_and] at hno ⊢
      exact fun e he _ => hno e he
    have ht : t = s.offer (endFrameOf tag group) :=
      (if_neg (by simp [State.isRun, hm])).trans (if_neg (by rw [hno']; exact Bool.false_ne_true))
    rw [ht]
    exact ⟨offer_end_placed _ _ (by rw [htag]; exact hno) hroom, howed⟩
  · have ht : t = { s with owedEnd := some { tag := tag, group := group } } := if_pos hf
    rw [ht]
    exact ⟨rfl, rfl⟩
  · have ht : t = s.offer (endFrameOf tag group) :=
      (if_neg (by rw [hf]; exact Bool.false_ne_true)).trans (if_pos hw)
    rw [ht]
    refine ⟨?_, howed⟩
    unfold endFrameOf
    rw [offer_end_cancels _ _ (by rw [htag]; exact hw), htag]
    exact takeOut_of_not_flying hf

/-! ## Its groups (R85, R88) -/

/-- Voice v under a tag is the holding voice of the group at place i. -/
def State.isHolding (s : State) (v : Fin 8) (tag : Nat) (i : Fin 15) : Prop := (s.groups.get i).holdingVoice = some (v, tag)

theorem dropHolding_of_not {v : Fin 8} {tag : Nat} {i : Fin 15} (h : ¬s.isHolding v tag i) : s.dropHolding v tag i = s := if_neg h

theorem queueRelease_groups (s : State) (g : Nat) :
    (s.queueRelease g).groups = s.groups ∧ (s.queueRelease g).owedEnd = s.owedEnd := by
  unfold State.queueRelease
  split
  · exact offer_groups s _
  · exact ⟨rfl, rfl⟩

/-- The holding voice of a group becomes none; other groups, and an END that is owed, stay (R85). -/
theorem dropHolding_groups (s : State) (v : Fin 8) (tag : Nat) (i : Fin 15) :
    (s.isHolding v tag i →
      (s.dropHolding v tag i).groups = s.groups.set i { s.groups.get i with holdingVoice := none }) ∧
    (s.dropHolding v tag i).owedEnd = s.owedEnd := by
  obtain ⟨hgroups, howed⟩ :=
    queueRelease_groups (s.setGroup i { s.groups.get i with holdingVoice := none }) (groupNumber i)
  unfold State.dropHolding
  dsimp only
  split
  · split
    · exact ⟨fun _ => rfl, rfl⟩
    · exact ⟨fun _ => hgroups, howed⟩
  next hn => exact ⟨fun h => absurd h hn, rfl⟩

/-- A group other than the one just left stands as it did. -/
theorem dropHolding_group_ne (s : State) (v : Fin 8) (tag : Nat) {i j : Fin 15} (h : i ≠ j) :
    (s.dropHolding v tag i).groups.get j = s.groups.get j := by
  by_cases hi : s.isHolding v tag i
  · rw [(dropHolding_groups s v tag i).1 hi, Table.get_set_ne _ _ h]
  · rw [dropHolding_of_not hi]

theorem inOrder_dropHolding (v : Fin 8) (tag : Nat) (l : List (Fin 15)) (hl : l.Nodup) (s : State) :
    (∀ i, (inOrder (fun i t => State.dropHolding t v tag i) l s).groups.get i =
      if i ∈ l ∧ (s.groups.get i).holdingVoice = some (v, tag) then { s.groups.get i with holdingVoice := none }
      else s.groups.get i) ∧
    (inOrder (fun i t => State.dropHolding t v tag i) l s).owedEnd = s.owedEnd := by
  induction l generalizing s with
  | nil => exact ⟨fun i => by simp [inOrder], rfl⟩
  | cons j rest ih =>
    rw [List.nodup_cons] at hl
    obtain ⟨hg, ho⟩ := ih hl.2 (s.dropHolding v tag j)
    refine ⟨fun i => ?_, ho.trans (dropHolding_groups s v tag j).2⟩
    refine (hg i).trans ?_
    by_cases hij : j = i
    · subst hij
      by_cases hh : s.isHolding v tag j
      · have hset : (s.dropHolding v tag j).groups.get j = { s.groups.get j with holdingVoice := none } := by
          rw [(dropHolding_groups s v tag j).1 hh, Table.get_set_self]
        rw [hset, if_neg (fun h => hl.1 h.1), if_pos ⟨List.mem_cons_self, hh⟩]
      · rw [dropHolding_of_not hh, if_neg (fun h => hh h.2), if_neg (fun h => hh h.2)]
    · rw [dropHolding_group_ne s v tag hij]
      simp [Ne.symm hij]

theorem mem_groupPlaces (i : Fin 15) : i ∈ groupPlaces := by
  revert i
  decide

/-- Leaving the one group that the voice holds is all that is done to the groups. -/
theorem inOrder_dropHolding_one {v : Fin 8} {tag : Nat} {i : Fin 15} (honly : ∀ j, s.isHolding v tag j → j = i) :
    inOrder (fun i t => State.dropHolding t v tag i) groupPlaces s = s.dropHolding v tag i := by
  refine inOrder_eq_one (f := fun i t => State.dropHolding t v tag i) (by decide) (mem_groupPlaces i) (fun j hj => ?_) fun j hj => ?_
  · exact dropHolding_of_not fun h => hj (honly j h)
  · refine dropHolding_of_not fun h => hj (honly j ?_)
    unfold State.isHolding at h ⊢
    rwa [dropHolding_group_ne s v tag hj.symm] at h

/-- A RELEASE is queued in RUN, unless one for the group is in the queue (R73, R90). -/
theorem queueRelease_spec (s : State) (g : Nat) :
    (s.mode ≠ .run ∨ s.hasFrame (Frame.isReleaseOf g) = true → s.queueRelease g = s) ∧
    (s.mode = .run → s.hasFrame (Frame.isReleaseOf g) = false → s.hasRoom →
      Placed s.queue (s.queueRelease g).queue (newEntry (.release (BitVec.ofNat 8 g)) s.cfg.number)) := by
  unfold State.queueRelease
  refine ⟨fun hno => if_neg fun hyes => ?_, fun hrun hnone hroom => ?_⟩
  · rw [Bool.and_eq_true, Bool.not_eq_true'] at hyes
    rcases hno with hno | hno
    · exact hno (of_decide_eq_true hyes.1)
    · rw [hyes.2] at hno
      cases hno
  · rw [if_pos (by simp [State.isRun, hrun, hnone])]
    unfold State.offer State.offerKey
    dsimp only
    rw [place_of_room _ _ hroom]
    exact placeEntry_placed _ _

/-- Under hold AUTO a RELEASE is queued for the group that the voice held, in RUN and where none is in the queue (R73, R88). -/
theorem dropHolding_queue {v : Fin 8} {tag : Nat} {i : Fin 15} (h : s.isHolding v tag i) :
    ((s.cfg.groups.get i).manual = true ∨ s.mode ≠ .run ∨ s.hasFrame (Frame.isReleaseOf (i.val + 1)) = true →
      (s.dropHolding v tag i).queue = s.queue) ∧
    ((s.cfg.groups.get i).manual = false → s.mode = .run → s.hasFrame (Frame.isReleaseOf (i.val + 1)) = false → s.hasRoom →
      Placed s.queue (s.dropHolding v tag i).queue (newEntry (.release (BitVec.ofNat 8 (i.val + 1))) s.cfg.number)) := by
  have hdrop : s.dropHolding v tag i =
      if (s.cfg.groups.get i).manual then s.setGroup i { s.groups.get i with holdingVoice := none }
      else (s.setGroup i { s.groups.get i with holdingVoice := none }).queueRelease (i.val + 1) := if_pos h
  obtain ⟨hstays, hplaced⟩ := queueRelease_spec (s.setGroup i { s.groups.get i with holdingVoice := none }) (i.val + 1)
  rw [hdrop]
  refine ⟨fun hno => ?_, fun hmanual hrun hnone hroom => ?_⟩
  · split
    · rfl
    next hmanual =>
      have hqueue := congrArg State.queue (hstays (hno.resolve_left hmanual))
      exact hqueue
  · rw [if_neg (by rw [hmanual]; exact Bool.false_ne_true)]
    exact hplaced hrun hnone hroom

/-- A voice that was not CLAIMING leaves its groups and the queue as R66, R85, R88 and R146 give. -/
theorem State.freedLeft_leaves {v : Fin 8} (h : (s.voice v).state ≠ .claiming) : LeavesGroupsAndQueue s (s.freedLeft v) v := by
  have hset : s.freedSettled v = State.settleAnnounce
      { s with
        voices := s.voices.set v (Voice.freed (s.voice v).generation)
        releasing := s.releasing.filter fun x => decide (x ≠ v)
        link := abandonFor v s.link } (s.voice v).announce (s.tag v) (s.cueOf (s.voice v)).group := by
    unfold State.freedSettled
    rw [State.withFreed_of_not_claiming h]
  obtain ⟨hlocal, hannounced, hqueued⟩ := settleAnnounce_spec
    { s with
      voices := s.voices.set v (Voice.freed (s.voice v).generation)
      releasing := s.releasing.filter fun x => decide (x ≠ v)
      link := abandonFor v s.link } (s.voice v).announce (s.tag_lt v) (s.cueOf (s.voice v)).group
  rw [← hset] at hlocal hannounced hqueued
  have hsame : (s.freedSettled v).groups = s.groups ∧ (s.freedSettled v).mode = s.mode ∧ (s.freedSettled v).cfg = s.cfg := by
    rw [hset]
    refine ⟨settleAnnounce_groups _ _ _ _, ?_⟩
    rw [(settleAnnounce_announces _ _ _ _).frame]
    exact ⟨rfl, rfl⟩
  obtain ⟨hgroups, hmode, hcfg⟩ := hsame
  obtain ⟨hgroup, howed⟩ := inOrder_dropHolding v (s.tag v) groupPlaces (by decide) (s.freedSettled v)
  replace howed : (s.freedLeft v).owedEnd = (s.freedSettled v).owedEnd := howed
  have hholding : ∀ i, (s.freedSettled v).isHolding v (s.tag v) i ↔ (s.groups.get i).holdingVoice = some (v, s.tag v) := fun i => by
    unfold State.isHolding
    rw [hgroups]
  unfold LeavesGroupsAndQueue
  intro tag group holding
  rw [howed]
  refine ⟨fun i => ?_, (s.freedSettled v).queue, hlocal, hannounced, hqueued, fun hnone => ?_, fun i hi honly => ?_⟩
  · refine (hgroup i).trans ?_
    rw [hgroups]
    exact if_congr (and_iff_right (mem_groupPlaces i)) rfl rfl
  · exact congrArg State.queue (inOrder_eq_self fun i _ => dropHolding_of_not fun hi => hnone i ((hholding i).mp hi))
  · have hone : s.freedLeft v = (s.freedSettled v).dropHolding v (s.tag v) i :=
      inOrder_dropHolding_one fun j hj => honly j ((hholding j).mp hj)
    have hqueue := dropHolding_queue ((hholding i).mpr hi)
    rw [hmode, hcfg] at hqueue
    rw [hone]
    exact hqueue

/-- A voice that is LOCAL and holds no group leaves nothing behind. -/
theorem State.freedLeft_alone {v : Fin 8} (hl : (s.voice v).announce = .localOnly)
    (hg : ∀ i, (s.groups.get i).holdingVoice ≠ some (v, s.tag v)) (h : (s.voice v).state ≠ .claiming) :
    s.freedLeft v = s.withFreed v := by
  have hsettled : s.freedSettled v = s.withFreed v := by
    unfold State.freedSettled
    rw [hl]
    rfl
  unfold State.freedLeft
  rw [hsettled]
  refine inOrder_eq_self fun i _ => dropHolding_of_not ?_
  unfold State.isHolding
  rw [State.withFreed_of_not_claiming h]
  exact hg i

end Sys2Proof.Machine
end


section
/-! PROOF. A voice at end of data enters FREE, and a request that waits takes its slot (EndOfDataFreesTheVoice). -/

namespace Sys2Proof.Machine

set_option Elab.async false

variable {s : State}

/-! ## A pass with nothing to serve, or with one request (R36) -/

/-- No line has a request and none waits in the remote queue. -/
structure NothingWaits (s : State) : Prop where
  lines : ∀ n, (s.line n).request = none
  remote : s.remote = []

/-- The passes owed are counted apart from all else. -/
theorem State.unowed {n : Nat} (h : s.passesDue = 0) : { { s with passesDue := n } with passesDue := 0 } = s :=
  State.passesDue_eta h

theorem NothingWaits.servePass (h : NothingWaits s) : s.servePass = s := by
  have hone : AtMostLine s 0 := ⟨fun m _ => h.lines m, h.remote⟩
  have hserve : s.serveLine 0 = s := State.serveLine_of_none (h.lines 0)
  rw [hone.servePass (by rw [hserve]; exact hone), hserve]

/-- Where nothing waits, a pass that is owed does nothing. -/
theorem NothingWaits.settlePasses (h : NothingWaits s) (hp : s.passesDue ≤ 1) : s.settlePasses = { s with passesDue := 0 } := by
  have hserve : { s with passesDue := 0 }.servePass = { s with passesDue := 0 } :=
    NothingWaits.servePass (s := { s with passesDue := 0 }) ⟨h.lines, h.remote⟩
  rcases Nat.le_one_iff_eq_zero_or_eq_one.mp hp with h0 | h1
  · rw [State.settlePasses_of_none h0, State.passesDue_eta h0]
  · rw [State.settlePasses_of_one h1 (by rw [hserve]), hserve]

/-! ## END_OF_DATA (R55) -/

theorem Voice.atEnd_of_reached {w : Voice} {q : Cue} (hp : w.state.plays = true)
    (hend : ∀ n, w.pathEnd q = some n → n ≤ w.playOffset) (hbound : w.pathEnd q ≠ none) : w.atEnd q = true := by
  obtain ⟨n, hn⟩ := Option.ne_none_iff_exists'.mp hbound
  have hbelow : belowEnd w.playOffset (w.pathEnd q) = false := belowEnd_eq_false.mpr ⟨n, hn, hend n hn⟩
  simp [Voice.atEnd, hp, hbelow]

/-- Voice v enters FREE at its end of data, and the pass that this owes is run. -/
theorem execEndOfData_of_atEnd {v : Fin 8} (h : (s.voice v).atEnd (s.cueOf (s.voice v)) = true) :
    exec (.endOfData v) s = .next (s.freeVoice v).settlePasses := congrArg Host.Outcome.next (if_pos h)

theorem not_claiming_of_plays {w : VoiceState} (h : w.plays = true) : w ≠ .claiming := by
  rintro rfl
  cases h

/-- A voice that enters FREE takes no request with it. -/
theorem NoRequests.withFreed (h : NoRequests s) (v : Fin 8) : NoRequests (s.withFreed v) := by
  unfold State.withFreed State.clearOwedFor
  split
  next n _ _ =>
    refine ⟨fun m => ?_, h.remote, h.passes⟩
    change ((s.setLine n (s.line n).clearOwed).line m).request = none
    rw [State.line_setLine]
    split
    · exact h.lines n
    · exact h.lines m
  · exact ⟨h.lines, h.remote, h.passes⟩

/-- Where nothing waits, a voice enters FREE and no more: the pass that its freeing owes finds nothing to serve. -/
theorem NoRequests.freeVoice (h : NoRequests s) (v : Fin 8) : (s.freeVoice v).settlePasses = s.freedLeft v := by
  have hframe := (s.freedLeft_announces v).frame
  have hfreed := h.withFreed v
  have heq := s.freeVoice_eq v
  generalize s.freedLeft v = t at hframe heq ⊢
  generalize s.withFreed v = z at hframe hfreed
  have hleft : NoRequests t := by
    rw [hframe]
    exact ⟨hfreed.lines, hfreed.remote, hfreed.passes⟩
  have hwaits : NothingWaits { t with passesDue := s.passesDue + 1 } := ⟨hleft.lines, hleft.remote⟩
  rw [heq, hwaits.settlePasses (Nat.le_of_eq (congrArg (· + 1) h.passes))]
  exact State.unowed hleft.passes

/-! ## A request takes a slot (R41, R51, R64) -/

theorem State.setVoice_self (v : Fin 8) : s.setVoice v (s.voice v) = s := by
  have h : s.voices.set v (s.voice v) = s.voices := by
    apply Table.ext_get
    intro i
    rw [Table.get_set]
    split
    next hi => exact hi ▸ rfl
    · rfl
  exact congrArg (fun t => { s with voices := t }) h

theorem isClaim_of_isEndOf {tag : Nat} {f : Frame} (h : f.isEndOf tag = true) : f.isClaim = false := by
  cases f <;> first | rfl | cases h

theorem offer_start_announces (s : State) (q : Cue) (c tag key : Nat) : Announces s (s.offerKey (startFrame q c tag) key).1 := by
  unfold startFrame State.offerKey
  dsimp only
  split
  · exact Announces.refl s
  · exact (takeOut_announces s fun f => isClaim_of_isEndOf).trans (place_announces _ _ _ rfl)

/-- The decision to announce a voice gives it an announce state, and may offer its START (R64, R65). -/
theorem decideAnnounce_announces (s : State) (v : Fin 8) :
    ∃ a, Announces (s.setVoice v { s.voice v with announce := a }) (s.decideAnnounce v) := by
  unfold State.decideAnnounce
  dsimp only
  split
  · refine ⟨.queued, ?_⟩
    have ho := offer_start_announces (s.setVoice v { s.voice v with announce := .queued }) (s.cueOf (s.voice v)) (s.voice v).cue
      (s.tag v) s.cfg.number
    split <;> rename_i he <;> rw [he] at ho
    · exact ho.trans (loseStart_announces _ _)
    all_goals exact ho
  · refine ⟨(s.voice v).announce, ?_⟩
    have hself : s.setVoice v { s.voice v with announce := (s.voice v).announce } = s := State.setVoice_self v
    rw [hself]
    exact Announces.refl s

/-- A voice taken for a line's request outside FIRST_WINS is PRIMING, the request has ended PLAYED, and the lines, the remote queue and
the passes owed are as they were (R36, R41, R51). -/
theorem State.take_spec (v n : Fin 8) {c : Nat} (hg : s.groupMode (s.groupOf c) ≠ .firstWins) :
    JustTaken (s.voice v) ((s.take v c (.line n)).voice v) s.startCounter c (.line n) .priming ∧
    (s.take v c (.line n)).outcomes = s.outcomes.set n.castSucc (some .played) ∧
    (s.take v c (.line n)).pointer = n.castSucc + 1 ∧ (s.take v c (.line n)).lines = s.lines ∧
    (s.take v c (.line n)).remote = s.remote ∧ (s.take v c (.line n)).passesDue = s.passesDue := by
  have htake : s.take v c (.line n) =
      (((s.takeSlot v c (.line n) false).recordPlayed (.line n)).decideAnnounce v).arbitrate := if_neg hg
  obtain ⟨a, hannounce⟩ := decideAnnounce_announces ((s.takeSlot v c (.line n) false).recordPlayed (.line n)) v
  obtain ⟨vs, k, harb, -⟩ := State.arbitrate_eq
    (s := ((s.takeSlot v c (.line n) false).recordPlayed (.line n)).decideAnnounce v)
  have hfetch : SameButFetch _ _ := State.arbitrate_voice
    (s := ((s.takeSlot v c (.line n) false).recordPlayed (.line n)).decideAnnounce v) v
  have htaken : ((s.takeSlot v c (.line n) false).recordPlayed (.line n)).voice v =
      takenVoice (s.voice v).generation s.startCounter c (.line n) false := s.voice_setVoice_self v _
  have hvoice := hannounce.voice v
  rw [State.voice_setVoice_self, htaken] at hvoice
  rw [← htake] at hfetch harb
  refine ⟨?_, ?_⟩
  · rw [hfetch, hvoice.rest]
    exact ⟨rfl, rfl, rfl, rfl, rfl, rfl, rfl, rfl, ⟨rfl, rfl, rfl⟩, ⟨rfl, rfl⟩, rfl⟩
  · rw [harb, hannounce.frame]
    exact ⟨rfl, rfl, rfl, rfl, rfl⟩

/-- The lowest FREE voice is the one FREE voice. -/
theorem State.lowestFree_of_only {v : Fin 8} (hv : (s.voice v).state = .free) (hu : ∀ u, u ≠ v → (s.voice u).state ≠ .free) :
    s.lowestFree = some v := by
  have h : s.lowestFree = slots.find? fun u => decide (u = v) := by
    unfold State.lowestFree
    congr 1
    funext u
    rw [decide_eq_decide]
    exact ⟨fun hfree => by_contra fun hne => hu u hne hfree, fun e => e ▸ hv⟩
  have hfind : ∀ v : Fin 8, (slots.find? fun u => decide (u = v)) = some v := by decide
  rw [h, hfind]

theorem State.clearRequest_line {n : Fin 8} (m : Fin 8) :
    ((s.clearRequest n).line m).request = if n = m then none else (s.line m).request := by
  unfold State.clearRequest
  rw [State.line_setLine]
  split <;> rfl

/-- A pass over the one pending request, which is admitted outside FIRST_WINS and finds one FREE voice, serves it with that voice. -/
theorem Admitted.served {n v : Fin 8} {r : Request} {q : Cue} (h : Admitted s r.cue q) (hreq : OnlyRequest s n r)
    (hg : s.groupMode q.group ≠ .firstWins) (hv : (s.voice v).state = .free) (hu : ∀ u, u ≠ v → (s.voice u).state ≠ .free) :
    Served s s.servePass n r.cue v ∧ s.servePass.passesDue = 0 := by
  have hgroup : s.groupMode (s.groupOf r.cue) ≠ .firstWins := by rwa [State.groupOf_of_record h.record]
  have hstep : s.stepVoice r.cue (.line n) = (s.take v r.cue (.line n), .leaves) := by
    unfold State.stepVoice
    rw [State.lowestFree_of_only hv hu]
  obtain ⟨hvoice, houtcomes, hpointer, hlines, hremote, hpasses⟩ := State.take_spec (s := s) v n hgroup
  have hserve : s.serveLine n = (s.take v r.cue (.line n)).clearRequest n := by
    unfold State.serveLine
    rw [hreq.line]
    dsimp only
    rw [h.decideRequest, hstep]
  have hline : ∀ m, ((s.take v r.cue (.line n)).line m).request = (s.line m).request := fun m => by
    unfold State.line
    rw [hlines]
  have hpass : s.servePass = (s.take v r.cue (.line n)).clearRequest n := by
    rw [← hserve]
    refine AtMostLine.servePass ⟨hreq.others, hreq.remote⟩ ⟨fun m hm => ?_, ?_⟩
    · rw [hserve, State.clearRequest_line, if_neg (Ne.symm hm), hline]
      exact hreq.others m hm
    · rw [hserve]
      exact hremote.trans hreq.remote
  rw [hpass]
  refine ⟨⟨hvoice, ?_, ?_, hpointer⟩, hpasses.trans hreq.passes⟩
  · rw [State.clearRequest_line, if_pos rfl]
  · exact (congrArg (fun o => Table.get o n.castSucc) houtcomes).trans (Table.get_set_self _ _ _)

/-- Settles O23: the voice enters FREE (`NoRequests.freeVoice`), leaves its groups and the queue (`State.freedLeft_leaves`), and the pass
of its freeing serves the request that waits (`Admitted.served`). -/
theorem endOfDataFreesTheVoice : Obligations.EndOfDataFreesTheVoice := by
  intro s v hplays hend hbound freed alone
  have hv := not_claiming_of_plays hplays
  have hexec := execEndOfData_of_atEnd (Voice.atEnd_of_reached hplays hend hbound)
  have hfreed : s.withFreed v = freed := State.withFreed_of_not_claiming hv
  have halone : alone → s.freedLeft v = freed := fun ⟨hl, hg⟩ => (State.freedLeft_alone hl hg hv).trans hfreed
  refine ⟨fun hreq => ⟨fun ha => ?_, s.freedLeft v, ?_, ?_, fun u hu => ?_, State.freedLeft_leaves hv, ?_⟩,
    fun n r q hreq ha hu hadm hg => ?_⟩
  · rw [hexec, hreq.freeVoice v, halone ha]
  · rw [hexec, hreq.freeVoice v]
  · exact (s.freedLeft_voice v v).1 rfl
  · exact ((s.freedLeft_voice u v).2 (Ne.symm hu)).untouched
  · have hframe := (s.freedLeft_announces v).frame
    rw [hfreed] at hframe
    exact hframe
  · have honly : OnlyRequest freed n r := ⟨hreq.line, hreq.others, hreq.remote, hreq.passes⟩
    have hvoice : ∀ u, freed.voice u = if v = u then Voice.freed (s.voice v).generation else s.voice u := fun u => by
      rw [← hfreed, State.withFreed_voice]
    obtain ⟨hserved, hpasses⟩ := hadm.served (v := v) honly hg (by rw [hvoice, if_pos rfl]; rfl) fun u hne => by
      rw [hvoice, if_neg (Ne.symm hne)]
      exact hu u hne
    refine ⟨freed.servePass, ?_, hserved⟩
    have hone : s.freeVoice v = { freed with passesDue := 1 } := by
      rw [State.freeVoice_eq, halone ha, hreq.passes]
    have hzero : { { freed with passesDue := 1 } with passesDue := 0 } = freed := State.unowed hreq.passes
    rw [hexec, hone, State.settlePasses_of_one rfl (by rw [hzero]; exact hpasses), hzero]

end Sys2Proof.Machine
end

section
/-! PROOF. Acting on some voices: what an operation on them leaves of the others, of the lines, the link and the CLAIMs. -/

namespace Sys2Proof.Machine

set_option Elab.async false

/-! ## A visit, as one member sees it (log entry 6) -/

section
variable {α : Type} {f : α → State → State} {I : State → Prop} {R : State → State → Prop}

/-- A relation that the settling of a free order and each turn keep is kept by a visit. -/
theorem visitFrom_within (hrefl : ∀ s, R s s) (htrans : ∀ {s t u}, R s t → R t u → R s u)
    (hchoice : ∀ s n, I s → I { s with choices := n } ∧ R s { s with choices := n }) (n : Nat) (l : List α)
    (hf : ∀ a ∈ l, ∀ s, I s → I (f a s) ∧ R s (f a s)) {s : State} (h : I s) :
    I (visitFrom f n l s) ∧ R s (visitFrom f n l s) := by
  induction n generalizing l s with
  | zero =>
    match l with
    | [] => exact ⟨h, hrefl s⟩
    | [a] => exact hf a List.mem_cons_self s h
    | _ :: _ :: _ => exact ⟨h, hrefl s⟩
  | succ n ih =>
    match l with
    | [] => exact ⟨h, hrefl s⟩
    | [a] => exact hf a List.mem_cons_self s h
    | a :: b :: rest =>
      obtain ⟨hc, rc⟩ := hchoice s (s.choices + 1) h
      have hi : Config.freeChoice s.choices % (a :: b :: rest).length < (a :: b :: rest).length := Nat.mod_lt _ (Nat.succ_pos _)
      have hmem : (a :: b :: rest).getD (Config.freeChoice s.choices % (a :: b :: rest).length) a ∈ a :: b :: rest := by
        rw [List.getD_eq_getElem _ _ hi]
        exact List.getElem_mem hi
      obtain ⟨hy, ry⟩ := hf _ hmem _ hc
      obtain ⟨ht, rt⟩ := ih ((a :: b :: rest).eraseIdx (Config.freeChoice s.choices % (a :: b :: rest).length))
        (fun x hx => hf x (List.mem_of_mem_eraseIdx hx)) hy
      exact ⟨ht, htrans (htrans rc ry) rt⟩

/-- A member of a visit has one turn: the others act before it and after it. -/
theorem visitFrom_turn (hrefl : ∀ s, R s s) (htrans : ∀ {s t u}, R s t → R t u → R s u)
    (hchoice : ∀ s n, I s → I { s with choices := n } ∧ R s { s with choices := n }) (n : Nat) (l : List α) (hn : l.length ≤ n)
    (hl : l.Nodup) {v : α} (hv : v ∈ l) (hkeep : ∀ s, I s → I (f v s))
    (hf : ∀ a ∈ l, a ≠ v → ∀ s, I s → I (f a s) ∧ R s (f a s)) {s : State} (h : I s) :
    ∃ x, I x ∧ R s x ∧ R (f v x) (visitFrom f n l s) := by
  induction n generalizing l s with
  | zero =>
    obtain rfl := List.eq_nil_of_length_eq_zero (Nat.le_zero.mp hn)
    cases hv
  | succ n ih =>
    match l with
    | [] => cases hv
    | [a] =>
      obtain rfl := List.mem_singleton.mp hv
      exact ⟨s, h, hrefl s, hrefl _⟩
    | a :: b :: rest =>
      obtain ⟨hc, rc⟩ := hchoice s (s.choices + 1) h
      unfold visitFrom
      dsimp only
      generalize hall : a :: b :: rest = all at hn hl hv hf ⊢
      have hi : Config.freeChoice s.choices % all.length < all.length :=
        Nat.mod_lt _ (by rw [← hall]; exact Nat.succ_pos _)
      generalize Config.freeChoice s.choices % all.length = i at hi ⊢
      rw [List.getD_eq_getElem _ _ hi]
      have hperm := List.getElem_cons_eraseIdx_perm hi
      have hnodup := hperm.symm.nodup hl
      rw [List.nodup_cons] at hnodup
      have hmem : all[i] ∈ all := List.getElem_mem hi
      by_cases hy : all[i] = v
      · rw [hy] at hnodup ⊢
        have hwithin := visitFrom_within hrefl htrans hchoice n (all.eraseIdx i)
          (fun x hx => hf x (List.mem_of_mem_eraseIdx hx) fun e => hnodup.1 (e ▸ hx)) (hkeep _ hc)
        exact ⟨_, hc, rc, hwithin.2⟩
      · obtain ⟨hs, rs⟩ := hf _ hmem hy _ hc
        have hv' : v ∈ all.eraseIdx i := (List.mem_cons.mp (hperm.mem_iff.mpr hv)).resolve_left (Ne.symm hy)
        have hlen : (all.eraseIdx i).length ≤ n := by
          rw [List.length_eraseIdx, if_pos hi]
          omega
        obtain ⟨x, hx, rx, rt⟩ := ih (all.eraseIdx i) hlen hnodup.2 hv'
          (fun a ha => hf a (List.mem_of_mem_eraseIdx ha)) hs
        exact ⟨x, hx, htrans (htrans rc rs) rx, rt⟩

end

/-! ## Acting on the voices of a line -/

theorem Untouched.refl (w : Voice) : Untouched w w := ⟨rfl, .inl rfl⟩

theorem Untouched.trans {w x u : Voice} (h : Untouched w x) (k : Untouched x u) : Untouched w u := by
  refine ⟨by rw [k.rest, h.rest], ?_⟩
  rcases k.announce with hk | ⟨hk, hu⟩
  · rw [hk]
    exact h.announce
  · rcases h.announce with hx | ⟨-, hx⟩
    · exact .inr ⟨hx ▸ hk, hu⟩
    · rw [hx] at hk
      cases hk

theorem SameButFetch.untouched {w u : Voice} (h : SameButFetch w u) : Untouched w u := by
  have ha : u.announce = w.announce := by rw [h]
  exact ⟨by rw [ha]; exact h, .inl ha⟩

theorem Untouched.state {w u : Voice} (h : Untouched w u) : u.state = w.state := by rw [h.rest]

/-- From s to t only voices that A picks have been acted on, as a release of line n acts on its voices: the other voices are untouched, a
busy link stays busy, a line changes in its owed-release mark only, and where no voice that A picks is CLAIMING no line and no CLAIM
changes (R22, R23, R30, R53, R60, R63). -/
structure ActsOnly (n : Fin 8) (A : Fin 8 → Prop) (s t : State) : Prop where
  cues : t.cues = s.cues
  startCounter : t.startCounter = s.startCounter
  remote : t.remote = s.remote
  passes : t.passesDue = s.passesDue
  lines : ∀ m, t.line m = { s.line m with owedRelease := (t.line m).owedRelease }
  outcome : t.outcomes.get n.castSucc = s.outcomes.get n.castSucc ∨ t.outcomes.get n.castSucc = some .withdrawn
  others : ∀ u, ¬A u → Untouched (s.voice u) (t.voice u)
  free : ∀ u g, ¬A u → s.voice u = Voice.freed g → t.voice u = Voice.freed g
  busy : ∀ y, s.link = some y → (∀ u, ¬A u → (t.voice u).fetchOffset = (s.voice u).fetchOffset) ∧
    ∃ z, t.link = some z ∧ z.slot = y.slot ∧ (¬A y.slot → z = y)
  releasing : ∀ u, ¬A u → u ∈ s.releasing → u ∈ t.releasing
  claiming : ∀ u, (t.voice u).state = .claiming → (s.voice u).state = .claiming
  quiet : (∀ a, A a → (s.voice a).state ≠ .claiming) → claimsIn t.queue = claimsIn s.queue ∧ t.lines = s.lines

variable {n : Fin 8} {A B : Fin 8 → Prop} {s t u : State}

/-- A change of nothing that `ActsOnly` speaks of. -/
theorem ActsOnly.of_same (cues : t.cues = s.cues := by rfl) (startCounter : t.startCounter = s.startCounter := by rfl)
    (remote : t.remote = s.remote := by rfl) (passes : t.passesDue = s.passesDue := by rfl) (lines : t.lines = s.lines := by rfl)
    (outcomes : t.outcomes = s.outcomes := by rfl) (voices : t.voices = s.voices := by rfl) (link : t.link = s.link := by rfl)
    (releasing : t.releasing = s.releasing := by rfl) (queue : t.queue = s.queue := by rfl) : ActsOnly n A s t where
  cues := cues
  startCounter := startCounter
  remote := remote
  passes := passes
  lines := fun m => by unfold State.line; rw [lines]
  outcome := .inl (by rw [outcomes])
  others := fun v _ => by unfold State.voice; rw [voices]; exact Untouched.refl _
  free := fun v g _ h => by unfold State.voice at h ⊢; rw [voices]; exact h
  busy := fun y hy => ⟨fun v _ => by unfold State.voice; rw [voices], y, by rw [link]; exact hy, rfl, fun _ => rfl⟩
  releasing := fun v _ h => by rw [releasing]; exact h
  claiming := fun v h => by unfold State.voice at h ⊢; rw [← voices]; exact h
  quiet := fun _ => ⟨by rw [queue], lines⟩

theorem ActsOnly.refl (s : State) : ActsOnly n A s s := ActsOnly.of_same

theorem ActsOnly.trans (h : ActsOnly n A s t) (k : ActsOnly n A t u) : ActsOnly n A s u where
  cues := k.cues.trans h.cues
  startCounter := k.startCounter.trans h.startCounter
  remote := k.remote.trans h.remote
  passes := k.passes.trans h.passes
  lines := fun m => by rw [k.lines m, h.lines m]
  outcome := by
    rcases k.outcome with hk | hk
    · rw [hk]
      exact h.outcome
    · exact .inr hk
  others := fun v hv => (h.others v hv).trans (k.others v hv)
  free := fun v g hv hs => k.free v g hv (h.free v g hv hs)
  busy := fun y hy => by
    obtain ⟨hfetch, z, hz, hslot, hsame⟩ := h.busy y hy
    obtain ⟨kfetch, x, hx, kslot, ksame⟩ := k.busy z hz
    refine ⟨fun v hv => (kfetch v hv).trans (hfetch v hv), x, hx, kslot.trans hslot, fun ha => ?_⟩
    exact (ksame (by rw [hslot]; exact ha)).trans (hsame ha)
  releasing := fun v hv hs => k.releasing v hv (h.releasing v hv hs)
  claiming := fun v hv => h.claiming v (k.claiming v hv)
  quiet := fun hq => by
    obtain ⟨hc, hl⟩ := h.quiet hq
    obtain ⟨kc, kl⟩ := k.quiet fun a ha hclaim => hq a ha (h.claiming a hclaim)
    exact ⟨kc.trans hc, kl.trans hl⟩

theorem ActsOnly.mono (h : ActsOnly n A s t) (hAB : ∀ u, A u → B u) : ActsOnly n B s t :=
  { h with
    others := fun v hv => h.others v fun ha => hv (hAB v ha)
    free := fun v g hv => h.free v g fun ha => hv (hAB v ha)
    busy := fun y hy => by
      obtain ⟨hfetch, z, hz, hslot, hsame⟩ := h.busy y hy
      exact ⟨fun v hv => hfetch v fun ha => hv (hAB v ha), z, hz, hslot, fun hb => hsame fun ha => hb (hAB _ ha)⟩
    releasing := fun v hv => h.releasing v fun ha => hv (hAB v ha)
    quiet := fun hq => h.quiet fun a ha => hq a (hAB a ha) }

/-! ## Single updates of one voice -/

variable {v : Fin 8}

theorem setVoice_acts (hv : A v) (w : Voice) (hw : w.state = .claiming → (s.voice v).state = .claiming) :
    ActsOnly n A s (s.setVoice v w) := by
  have hne : ∀ u, ¬A u → (s.setVoice v w).voice u = s.voice u :=
    fun u hu => s.voice_setVoice_ne w fun e => hu (e ▸ hv)
  refine ⟨rfl, rfl, rfl, rfl, fun m => rfl, .inl rfl, fun u hu => ?_, fun u g hu h => ?_, fun y hy => ?_, fun u _ h => h, fun u h => ?_,
    fun _ => ⟨rfl, rfl⟩⟩
  · rw [hne u hu]
    exact Untouched.refl _
  · rw [hne u hu]
    exact h
  · exact ⟨fun u hu => by rw [hne u hu], y, hy, rfl, fun _ => rfl⟩
  · rw [State.voice_setVoice] at h
    split at h
    next e => exact e ▸ hw h
    · exact h

theorem joinReleasing_acts : ActsOnly n A s (s.joinReleasing v) :=
  { ActsOnly.refl s with releasing := fun _ _ h => List.mem_append_left _ h }

theorem withLink_acts (k : Option Transfer) (h : ∀ y, s.link = some y → ∃ z, k = some z ∧ z.slot = y.slot ∧ (¬A y.slot → z = y)) :
    ActsOnly n A s { s with link := k } :=
  { ActsOnly.refl s with busy := fun y hy => ⟨fun _ _ => rfl, h y hy⟩ }

theorem cutTransfer_acts (hv : A v) (x : Nat) : ActsOnly n A s (s.cutTransfer v x) := by
  unfold State.cutTransfer
  split
  next t ht =>
    split
    next hslot =>
      refine withLink_acts _ fun y hy => ⟨t.dropFrom x, rfl, ?_, fun hn => absurd hv ?_⟩
      · rw [ht] at hy
        cases hy
        rfl
      · rw [ht] at hy
        cases hy
        rw [← hslot.1]
        exact hn
    · exact ActsOnly.refl s
  · exact ActsOnly.refl s

theorem testPrimed_acts (hv : A v) : ActsOnly n A s (s.testPrimed v) := by
  unfold State.testPrimed
  dsimp only
  split
  · exact setVoice_acts hv _ nofun
  · exact ActsOnly.refl s

/-- The arbiter grants a voice that needs a chunk (R12, R15). -/
theorem needsChunk_of_grantee (h : grantee s = some v) : (s.voice v).needsChunk (s.cueOf (s.voice v)) = true := by
  have hfold : ∀ (l : List (Fin 8)) (x : Fin 8), l.foldl (fewerFrames s) x ∈ x :: l := by
    intro l
    induction l with
    | nil => exact fun x => List.mem_cons_self
    | cons y l ih =>
      intro x
      rcases List.mem_cons.mp (ih (fewerFrames s x y)) with hx | hl
      · rw [List.foldl_cons, hx]
        unfold fewerFrames
        split
        · exact List.mem_cons_of_mem x List.mem_cons_self
        · exact List.mem_cons_self
      · exact List.mem_cons_of_mem x (List.mem_cons_of_mem y hl)
  unfold grantee at h
  split at h
  · cases h
  next x rest he =>
    cases h
    have hm := hfold rest x
    rw [← he] at hm
    exact (List.mem_filter.mp hm).2

theorem arbitrate_acts : ActsOnly n A s s.arbitrate := by
  cases hl : s.link with
  | some y =>
    rw [State.arbitrate_of_busy hl]
    exact ActsOnly.refl s
  | none =>
    obtain ⟨vs, k, he, -⟩ := s.arbitrate_eq
    have hvoice : ∀ u, SameButFetch (s.voice u) (s.arbitrate.voice u) := fun u => State.arbitrate_voice u
    have hfreed : ∀ u g, s.voice u = Voice.freed g → s.arbitrate.voice u = Voice.freed g := by
      intro u g hu
      unfold State.arbitrate
      split
      · exact hu
      · split
        next v hv =>
          have hne : v ≠ u := by
            rintro rfl
            have hneeds := needsChunk_of_grantee hv
            rw [hu] at hneeds
            cases hneeds
          exact (s.voice_setVoice_ne _ hne).trans hu
        · exact hu
    have hframe : ∀ (t : State), t = { s with voices := vs, link := k } → (∀ u, SameButFetch (s.voice u) (t.voice u)) →
        (∀ u g, s.voice u = Voice.freed g → t.voice u = Voice.freed g) → ActsOnly n A s t := by
      rintro t rfl hs hg
      refine { ActsOnly.refl (n := n) (A := A) s with
        others := fun u _ => (hs u).untouched
        free := fun u g _ => hg u g
        busy := fun y hy => ?_
        claiming := fun u hu => ?_ }
      · rw [hl] at hy
        cases hy
      · rwa [(hs u).untouched.state] at hu
    exact hframe _ he hvoice hfreed

theorem beginTail_acts (hv : A v) : ActsOnly n A s (s.beginTail v) := by
  unfold State.beginTail
  dsimp only
  split
  · refine ActsOnly.trans ?_ arbitrate_acts
    refine ActsOnly.trans ?_ (testPrimed_acts hv)
    refine ActsOnly.trans ?_ (cutTransfer_acts hv _)
    exact setVoice_acts hv _ id
  · exact ActsOnly.refl s

/-! ## Freeing and withdrawing -/

theorem Announces.acts (h : Announces s t) : ActsOnly n A s t := by
  have hlink : t.link = s.link := by rw [h.frame]
  have hreleasing : t.releasing = s.releasing := by rw [h.frame]
  have hlines : t.lines = s.lines := by rw [h.frame]
  exact {
    cues := by rw [h.frame]
    startCounter := by rw [h.frame]
    remote := by rw [h.frame]
    passes := h.passesDue
    lines := fun m => by unfold State.line; rw [hlines]
    outcome := .inl (by rw [h.frame])
    others := fun u _ => (h.voice u).untouched
    free := fun u g _ hu => ((h.voice u).eq_of_not_queued (by rw [hu]; exact nofun)).trans hu
    busy := fun y hy => ⟨fun u _ => by rw [(h.voice u).rest], y, by rw [hlink]; exact hy, rfl, fun _ => rfl⟩
    releasing := fun u _ hu => by rw [hreleasing]; exact hu
    claiming := fun u hu => by rwa [(h.voice u).untouched.state] at hu
    quiet := fun _ => ⟨h.claims, hlines⟩ }

theorem setLine_acts (hv : A v) (hclaim : (s.voice v).state = .claiming) (m : Fin 8) (b : Bool) :
    ActsOnly n A s (s.setLine m { s.line m with owedRelease := b }) :=
  { ActsOnly.refl s with
    lines := fun k => by
      rw [State.line_setLine]
      split
      next e => rw [e]
      · rfl
    quiet := fun hq => absurd hclaim (hq v hv) }

theorem clearOwedFor_acts (hv : A v) : ActsOnly n A s (s.clearOwedFor (s.voice v)) := by
  unfold State.clearOwedFor
  split
  next m hclaim _ => exact setLine_acts hv hclaim m false
  · exact ActsOnly.refl s

theorem withFreed_acts (hv : A v) : ActsOnly n A s (s.withFreed v) := by
  have hset := (clearOwedFor_acts (n := n) hv).trans
    (setVoice_acts (s := s.clearOwedFor (s.voice v)) hv (Voice.freed (s.voice v).generation) nofun)
  have hsame : (s.clearOwedFor (s.voice v)).releasing = s.releasing ∧ (s.clearOwedFor (s.voice v)).link = s.link := by
    unfold State.clearOwedFor
    split <;> exact ⟨rfl, rfl⟩
  refine { hset with
    busy := fun y hy => ?_
    releasing := fun u hu hm => ?_ }
  · obtain ⟨hfetch, -⟩ := hset.busy y hy
    refine ⟨hfetch, ?_⟩
    change ∃ z, abandonFor v s.link = some z ∧ _
    rw [hy]
    unfold abandonFor
    dsimp only
    split
    next hslot => exact ⟨_, rfl, rfl, fun hn => absurd (hslot ▸ hv) hn⟩
    · exact ⟨y, rfl, rfl, fun _ => rfl⟩
  · exact List.mem_filter.mpr ⟨hm, decide_eq_true fun e => hu (e ▸ hv)⟩

theorem freedLeft_acts (hv : A v) : ActsOnly n A s (s.freedLeft v) := (withFreed_acts hv).trans (s.freedLeft_announces v).acts

/-- The station with the CLAIM of voice v taken out and its claimed request WITHDRAWN (R53). -/
def State.claimWithdrawn (s : State) (v : Fin 8) : State :=
  (s.takeOut (Frame.isClaimOf (s.cueOf (s.voice v)).group)).settleClaim v .withdrawn

theorem claimWithdrawn_frame (s : State) (v : Fin 8) :
    ∃ o, s.claimWithdrawn v = { s.takeOut (Frame.isClaimOf (s.cueOf (s.voice v)).group) with outcomes := o } := by
  unfold State.claimWithdrawn State.settleClaim State.recordOutcome
  dsimp only
  split
  · split
    · exact ⟨_, rfl⟩
    · exact ⟨s.outcomes, rfl⟩
  · exact ⟨s.outcomes, rfl⟩
  · exact ⟨s.outcomes, rfl⟩

/-- The claimed request of a voice of line n leaves its outcome with that line. -/
theorem claimWithdrawn_outcomes (hsource : (s.voice v).source = .line n) :
    ((s.voice v).claimed = .openClaim → (s.claimWithdrawn v).outcomes.get n.castSucc = some .withdrawn) ∧
    ((s.voice v).claimed ≠ .openClaim → (s.claimWithdrawn v).outcomes = s.outcomes) := by
  have hvoice : (s.takeOut (Frame.isClaimOf (s.cueOf (s.voice v)).group)).voice v = s.voice v := rfl
  unfold State.claimWithdrawn State.settleClaim
  dsimp only
  rw [hvoice, hsource]
  cases (s.voice v).claimed with
  | openClaim => exact ⟨fun _ => Table.get_set_self _ _ _, fun h => absurd rfl h⟩
  | none | played => exact ⟨nofun, fun _ => rfl⟩

theorem claimWithdrawn_acts (hv : A v) (hclaim : (s.voice v).state = .claiming) (hsource : (s.voice v).source = .line n) :
    ActsOnly n A s (s.claimWithdrawn v) := by
  obtain ⟨hopen, hother⟩ := claimWithdrawn_outcomes (s := s) hsource
  have houtcome : (s.claimWithdrawn v).outcomes.get n.castSucc = s.outcomes.get n.castSucc ∨
      (s.claimWithdrawn v).outcomes.get n.castSucc = some .withdrawn := by
    by_cases hc : (s.voice v).claimed = .openClaim
    · exact .inr (hopen hc)
    · exact .inl (by rw [hother hc])
  obtain ⟨o, ho⟩ := claimWithdrawn_frame s v
  rw [ho] at houtcome ⊢
  exact { ActsOnly.refl (n := n) (A := A) s with outcome := houtcome, quiet := fun hq => absurd hclaim (hq v hv) }

end Sys2Proof.Machine
end

section
/-! PROOF. The turn of one voice in a line release (R56 to R60), and what its tail cuts back (R10, R22). -/

namespace Sys2Proof.Machine

set_option Elab.async false

variable {n v : Fin 8} {A : Fin 8 → Prop} {s t : State}

/-! ## Passes where no request waits -/

theorem NoRequests.of_acts (h : NoRequests s) (k : ActsOnly n A s t) : NoRequests t where
  lines := fun m => by
    rw [k.lines m]
    exact h.lines m
  remote := k.remote.trans h.remote
  passes := k.passes.trans h.passes

theorem NoRequests.settlePasses (h : NoRequests s) : s.settlePasses = s := State.settlePasses_of_none h.passes

/-! ## A tail begins (R10, R22) -/

/-- The voice with its path rewritten at X: what it holds from X on is gone (R10, R22). -/
def Voice.cutBack (w : Voice) (x : Nat) : Voice :=
  { w with
    tail := some x
    buffer := w.buffer.take (x - w.playOffset)
    fetchOffset := min w.fetchOffset x }

/-- The reads of a voice's transfer from X on get their drop mark (R22). -/
theorem State.cutTransfer_eq (s : State) (v : Fin 8) (x : Nat) :
    ∃ k, s.cutTransfer v x = { s with link := k } ∧
      ∀ y, s.link = some y → k ≠ none ∧ (y.slot = v → y.generation = (s.voice v).generation → k = some (y.dropFrom x)) := by
  unfold State.cutTransfer
  split
  next y hl =>
    split
    next h => exact ⟨_, rfl, fun z hz => by rw [hl] at hz; cases hz; exact ⟨nofun, fun _ _ => rfl⟩⟩
    next h => exact ⟨s.link, rfl, fun z hz => by
      rw [hl] at hz
      cases hz
      exact ⟨by rw [hl]; exact nofun, fun hs hg => absurd ⟨hs, hg⟩ h⟩⟩
  next hl => exact ⟨s.link, rfl, fun z hz => by rw [hl] at hz; cases hz⟩

/-- A tail that begins cuts the voice and its transfer back, tests its priming, and calls the arbiter. -/
theorem State.beginTail_eq {last : Nat} (he : (s.cueOf (s.voice v)).mode.tailEnd = some last) (ht : (s.voice v).tail = none) :
    ∃ k, s.beginTail v =
        ({ s with link := k }.setVoice v
          (((s.voice v).cutBack (crossing (s.cueOf (s.voice v)) (s.voice v) last)).tested (s.cueOf (s.voice v)))).arbitrate ∧
      ∀ y, s.link = some y → k ≠ none ∧ (y.slot = v → y.generation = (s.voice v).generation →
        k = some (y.dropFrom (crossing (s.cueOf (s.voice v)) (s.voice v) last))) := by
  unfold State.beginTail
  dsimp only
  rw [he, ht]
  dsimp only
  generalize hx : crossing (s.cueOf (s.voice v)) (s.voice v) last = x
  have hw : { s.voice v with
      tail := some x, buffer := (s.voice v).buffer.take (x - (s.voice v).playOffset),
      fetchOffset := min (s.voice v).fetchOffset x } = (s.voice v).cutBack x := rfl
  rw [hw]
  obtain ⟨k, hcut, hlink⟩ := (s.setVoice v ((s.voice v).cutBack x)).cutTransfer_eq v x
  rw [State.voice_setVoice_self] at hlink
  refine ⟨k, ?_, hlink⟩
  have htest := State.testPrimed_setVoice (s := { s with link := k }) v ((s.voice v).cutBack x)
  rw [hcut]
  exact congrArg State.arbitrate htest

theorem State.beginTail_of_tail {x : Nat} (ht : (s.voice v).tail = some x) : s.beginTail v = s := by
  unfold State.beginTail
  dsimp only
  rw [ht]
  split
  next h => cases h
  · rfl

/-- What a tail that begins leaves of its voice and of the link. -/
structure BeginsTail (s t : State) (v : Fin 8) (last : Nat) : Prop where
  voice : SameButFetch
    (((s.voice v).cutBack (crossing (s.cueOf (s.voice v)) (s.voice v) last)).tested (s.cueOf (s.voice v))) (t.voice v)
  releasing : t.releasing = s.releasing
  busy : ∀ y, s.link = some y →
    (t.voice v).fetchOffset = min (s.voice v).fetchOffset (crossing (s.cueOf (s.voice v)) (s.voice v) last) ∧
      t.link ≠ none ∧ (y.slot = v → y.generation = (s.voice v).generation →
        t.link = some (y.dropFrom (crossing (s.cueOf (s.voice v)) (s.voice v) last)))

theorem Voice.tested_fetchOffset (w : Voice) (q : Cue) : (w.tested q).fetchOffset = w.fetchOffset := by
  rw [w.tested_frame q]

theorem State.beginTail_begins {last : Nat} (he : (s.cueOf (s.voice v)).mode.tailEnd = some last) (ht : (s.voice v).tail = none) :
    BeginsTail s (s.beginTail v) v last := by
  obtain ⟨k, heq, hlink⟩ := State.beginTail_eq he ht
  generalize hw : ((s.voice v).cutBack (crossing (s.cueOf (s.voice v)) (s.voice v) last)).tested (s.cueOf (s.voice v)) = w at heq
  have hfetch : w.fetchOffset = min (s.voice v).fetchOffset (crossing (s.cueOf (s.voice v)) (s.voice v) last) := by
    rw [← hw, Voice.tested_fetchOffset]
    rfl
  generalize hz : { s with link := k }.setVoice v w = z at heq
  have hzv : z.voice v = w := by
    rw [← hz]
    exact State.voice_setVoice_self _ v w
  have hzl : z.link = k := by rw [← hz]; rfl
  have hzr : z.releasing = s.releasing := by rw [← hz]; rfl
  have hvoice : SameButFetch (z.voice v) (z.arbitrate.voice v) := State.arbitrate_voice v
  obtain ⟨vs, k', harb, -⟩ := State.arbitrate_eq (s := z)
  rw [heq]
  refine ⟨?_, ?_, fun y hy => ?_⟩
  · rw [hw, ← hzv]
    exact hvoice
  · rw [harb]
    exact hzr
  · obtain ⟨hne, hdrop⟩ := hlink y hy
    obtain ⟨y', hy'⟩ := Option.ne_none_iff_exists'.mp hne
    rw [State.arbitrate_of_busy (hzl.trans hy'), hzv, hzl]
    exact ⟨hfetch, hne, hdrop⟩

/-! ## A release of one voice (R56 to R60) -/

theorem Cue.lineRelease_of_no_tail {q : Cue} (h : q.mode.tailEnd = none) : q.lineRelease = .fade q.fadeOut := by
  unfold Cue.lineRelease
  split
  next hm => rw [hm] at h; cases h
  all_goals rfl

theorem Cue.lineRelease_of_tail {q : Cue} (h : q.mode.tailEnd ≠ none) : q.lineRelease = .tail := by
  unfold Cue.lineRelease
  split
  · rfl
  all_goals next hm => rw [hm] at h; exact absurd rfl h

theorem NoRequests.settled_acts (h : NoRequests s) (k : ActsOnly n A s t) : ActsOnly n A s t.settlePasses := by
  rw [(h.of_acts k).settlePasses]
  exact k

theorem NoRequests.freeVoice_acts (h : NoRequests s) (hv : A v) : ActsOnly n A s (s.freeVoice v).settlePasses := by
  rw [h.freeVoice]
  exact freedLeft_acts hv

theorem runDown_acts (hv : A v) (r : Rate) : ActsOnly n A s (s.setVoice v ((s.voice v).runDown r)) := setVoice_acts hv _ nofun

theorem runTail_acts (hv : A v) : ActsOnly n A s ((s.setVoice v (s.voice v).runTail).joinReleasing v) :=
  (setVoice_acts hv (s.voice v).runTail nofun).trans joinReleasing_acts

theorem NoRequests.releaseVoice_acts (h : NoRequests s) (hv : A v) (r : Rate) :
    ActsOnly n A s (s.releaseVoice v r).settlePasses := by
  unfold State.releaseVoice
  dsimp only
  split
  case h_1 | h_2 => exact h.settled_acts (ActsOnly.refl s)
  case h_3 => exact h.settled_acts (beginTail_acts hv)
  case h_4 | h_5 | h_7 => exact h.freeVoice_acts hv
  case h_6 => exact h.settled_acts ((runTail_acts hv).trans (beginTail_acts hv))
  case h_8 | h_9 =>
    split
    · exact h.freeVoice_acts hv
    · exact h.settled_acts ((runDown_acts hv _).trans joinReleasing_acts)
  case h_10 =>
    split
    · split
      · exact h.freeVoice_acts hv
      · exact h.settled_acts (runDown_acts hv _)
    · exact h.settled_acts (ActsOnly.refl s)

theorem State.isLineVoice_iff {c : Nat} :
    s.isLineVoice n c v = true ↔ (s.voice v).state ≠ .free ∧ (s.voice v).source = .line n ∧ (s.voice v).cue = c := by
  simp [State.isLineVoice, and_assoc]

theorem State.claimQueued_iff :
    s.claimQueued v = true ↔
      (s.voice v).state = .claiming ∧ s.hasWaiting (Frame.isClaimOf (s.cueOf (s.voice v)).group) = true := by
  simp [State.claimQueued]

theorem State.claimFlying_iff :
    s.claimFlying v = true ↔
      (s.voice v).state = .claiming ∧ s.hasFlying (Frame.isClaimOf (s.cueOf (s.voice v)).group) = true := by
  simp [State.claimFlying]

/-- The turn of voice v in the visit of a line release. -/
def State.lineTurn (s : State) (n : Fin 8) (c : Nat) (v : Fin 8) : State := (s.releaseLineVoice n c v).settlePasses

theorem NoRequests.lineTurn_acts (h : NoRequests s) (hv : A v) (c : Nat) : ActsOnly n A s (s.lineTurn n c v) := by
  unfold State.lineTurn State.releaseLineVoice
  split
  · exact h.settled_acts (ActsOnly.refl s)
  next hl =>
    rw [Bool.not_eq_true, Bool.not_eq_false', State.isLineVoice_iff] at hl
    obtain ⟨-, hsource, -⟩ := hl
    split
    next hq =>
      have hacts := claimWithdrawn_acts (n := n) hv (State.claimQueued_iff.mp hq).1 hsource
      exact hacts.trans ((h.of_acts hacts).freeVoice_acts hv)
    · split
      next hf => exact h.settled_acts (setLine_acts hv (State.claimFlying_iff.mp hf).1 n true)
      · exact h.releaseVoice_acts hv _

end Sys2Proof.Machine
end

section
/-! PROOF. What its turn gives each voice of the line, by its state (R30, R56 to R60). -/

namespace Sys2Proof.Machine

set_option Elab.async false

variable {n v : Fin 8} {s t : State} {c : Nat}

/-! ## A fade (R57 to R59) -/

theorem Rate.rank_eq_zero_iff (r : Rate) : r.rank = 0 ↔ r = .fade 0 := by
  match r with
  | .fade 0 => exact ⟨fun _ => rfl, fun _ => rfl⟩
  | .fade (k + 1) => exact ⟨nofun, nofun⟩
  | .cut => exact ⟨nofun, nofun⟩
  | .tail => exact ⟨nofun, nofun⟩

/-- A legal rate is at most the tail's in the order of R54. -/
theorem Rate.rank_le_of_legal {r : Rate} (h : r.legal) : r.rank ≤ Rate.tail.rank := by
  match r with
  | .fade 0 => exact Nat.zero_le _
  | .fade (k + 1) =>
    have hk : k + 1 ≤ 7 := h
    change k + 2 ≤ 9
    omega
  | .cut => exact Nat.le_add_left 1 8
  | .tail => exact Nat.le_refl _

theorem NoRequests.freeVoice_voice (h : NoRequests s) (v : Fin 8) :
    (s.freeVoice v).settlePasses.voice v = Voice.freed (s.voice v).generation := by
  rw [h.freeVoice]
  exact (s.freedLeft_voice v v).1 rfl

theorem NoRequests.runDown_voice (h : NoRequests s) (v : Fin 8) (r : Rate) :
    (s.setVoice v ((s.voice v).runDown r)).settlePasses.voice v = (s.voice v).runDown r := by
  rw [(h.of_acts (runDown_acts (n := 0) (A := (· = v)) rfl r)).settlePasses]
  exact s.voice_setVoice_self v _

theorem NoRequests.runDown_joined_voice (h : NoRequests s) (v : Fin 8) (r : Rate) :
    ((s.setVoice v ((s.voice v).runDown r)).joinReleasing v).settlePasses.voice v = (s.voice v).runDown r := by
  have hacts := (runDown_acts (n := 0) (s := s) (A := (· = v)) rfl r).trans (joinReleasing_acts (v := v))
  rw [(h.of_acts hacts).settlePasses]
  exact s.voice_setVoice_self v _

/-- A release by a fade, and the entry into FREE that it may come to (R57, R58, R59). -/
theorem NoRequests.releaseVoice_fade (h : NoRequests s) (v : Fin 8) (k : Nat) :
    (s.releaseVoice v (.fade k)).settlePasses.voice v = (s.voice v).released (.fade k) := by
  have hfreed := h.freeVoice_voice v
  unfold State.releaseVoice Voice.released
  dsimp only
  cases hw : (s.voice v).state with
  | free | claiming => exact congrArg (fun t => State.voice t v) h.settlePasses
  | priming => exact hfreed
  | sounding =>
    cases k with
    | zero => exact hfreed.trans (if_pos (.inl rfl)).symm
    | succ k =>
      dsimp only
      by_cases hl : (s.voice v).level = 0
      · rw [if_pos hl, if_pos (.inr hl)]
        exact hfreed
      · rw [if_neg hl, if_neg (not_or.mpr ⟨nofun, hl⟩)]
        exact h.runDown_joined_voice v _
  | releasing =>
    dsimp only
    by_cases hr : (Rate.fade k).rank < ((s.voice v).rate.getD .tail).rank
    · have hzero := or_congr_left (Rate.rank_eq_zero_iff (.fade k)) (c := (s.voice v).level = 0)
      rw [if_pos hr, if_pos hr]
      by_cases hl : Rate.fade k = .fade 0 ∨ (s.voice v).level = 0
      · rw [if_pos hl, if_pos (hzero.mpr hl)]
        exact hfreed
      · rw [if_neg hl, if_neg (hl ∘ hzero.mp)]
        exact h.runDown_voice v _
    · rw [if_neg hr, if_neg hr]
      exact congrArg (fun t => State.voice t v) h.settlePasses

theorem Untouched.generation {w u : Voice} (h : Untouched w u) : u.generation = w.generation := by rw [h.rest]

/-- What a release does with a voice is not about its fetch offset or its announce state. -/
theorem Untouched.released {w u : Voice} (h : Untouched w u) (r : Rate) : Untouched (w.released r) (u.released r) := by
  have hlevel : u.level = w.level := by rw [h.rest]
  have hrate : u.rate = w.rate := by rw [h.rest]
  have hfreed : Untouched (Voice.freed w.generation) (Voice.freed u.generation) := by
    rw [h.generation]
    exact Untouched.refl _
  have hdown : Untouched (w.runDown r) (u.runDown r) := by
    refine ⟨?_, h.announce⟩
    rw [h.rest]
    rfl
  unfold Voice.released
  rw [h.state, hlevel, hrate]
  split
  case h_1 | h_2 => exact h
  case h_3 => exact hfreed
  case h_4 =>
    split
    · exact hfreed
    · exact hdown
  case h_5 =>
    split
    · split
      · exact hfreed
      · exact hdown
    · exact h

/-! ## The turn of a voice that is not CLAIMING (R56) -/

theorem State.lineTurn_of_not_claiming (hl : s.isLineVoice n c v = true) (hv : (s.voice v).state ≠ .claiming) :
    s.lineTurn n c v = (s.releaseAsLine v).settlePasses := by
  have hq : s.claimQueued v = false := Bool.eq_false_iff.mpr fun h => hv (State.claimQueued_iff.mp h).1
  have hf : s.claimFlying v = false := Bool.eq_false_iff.mpr fun h => hv (State.claimFlying_iff.mp h).1
  unfold State.lineTurn State.releaseLineVoice
  rw [hl, hq, hf]
  rfl

/-- The turn of a voice whose cue is no LOOP_TAIL cue. -/
theorem NoRequests.lineTurn_fade (h : NoRequests s) (hl : s.isLineVoice n c v = true) (hv : (s.voice v).state ≠ .claiming)
    (hm : (s.cueOf (s.voice v)).mode.tailEnd = none) :
    (s.lineTurn n c v).voice v = (s.voice v).released (.fade (s.cueOf (s.voice v)).fadeOut) := by
  rw [State.lineTurn_of_not_claiming hl hv]
  unfold State.releaseAsLine
  rw [Cue.lineRelease_of_no_tail hm]
  exact h.releaseVoice_fade v _

theorem State.releaseVoice_tail_of_priming (hs : (s.voice v).state = .priming) : s.releaseVoice v .tail = s.beginTail v := by
  unfold State.releaseVoice
  dsimp only
  rw [hs]

theorem State.releaseVoice_tail_of_sounding (hs : (s.voice v).state = .sounding) :
    s.releaseVoice v .tail = ((s.setVoice v (s.voice v).runTail).joinReleasing v).beginTail v := by
  unfold State.releaseVoice
  dsimp only
  rw [hs]

/-- A RELEASING voice is not released again by a tail: no legal rate is behind the tail's (R54, R56). -/
theorem State.releaseVoice_tail_of_releasing (hs : (s.voice v).state = .releasing)
    (hr : ∀ r, (s.voice v).rate = some r → r.legal) : s.releaseVoice v .tail = s := by
  have hrank : ¬Rate.tail.rank < ((s.voice v).rate.getD .tail).rank := by
    refine Nat.not_lt.mpr ?_
    cases hrate : (s.voice v).rate with
    | none => exact Nat.le_refl _
    | some r => exact Rate.rank_le_of_legal (hr r hrate)
  unfold State.releaseVoice
  dsimp only
  rw [hs]
  exact if_neg hrank

/-- The turn of a voice of a LOOP_TAIL cue. -/
theorem State.lineTurn_tail (hl : s.isLineVoice n c v = true) (hv : (s.voice v).state ≠ .claiming)
    (hm : (s.cueOf (s.voice v)).mode.tailEnd ≠ none) : s.lineTurn n c v = (s.releaseVoice v .tail).settlePasses := by
  rw [State.lineTurn_of_not_claiming hl hv, State.releaseAsLine, Cue.lineRelease_of_tail hm]

theorem NoRequests.beginTail_settled (h : NoRequests s) (v : Fin 8) : (s.beginTail v).settlePasses = s.beginTail v :=
  (h.of_acts (beginTail_acts (n := 0) (A := (· = v)) rfl)).settlePasses

/-! ## The turn of a CLAIMING voice (R53) -/

/-- A CLAIM that waits is withdrawn, and its voice enters FREE. -/
theorem NoRequests.lineTurn_withdrawn (h : NoRequests s) (hl : s.isLineVoice n c v = true) (hq : s.claimQueued v = true) :
    s.lineTurn n c v = (s.claimWithdrawn v).freedLeft v := by
  have hacts := claimWithdrawn_acts (A := (· = v)) rfl (State.claimQueued_iff.mp hq).1 (State.isLineVoice_iff.mp hl).2.1
  have hline : s.releaseLineVoice n c v = (s.claimWithdrawn v).freeVoice v := by
    unfold State.releaseLineVoice
    rw [hl, hq]
    rfl
  unfold State.lineTurn
  rw [hline]
  exact (h.of_acts hacts).freeVoice v

/-- While the CLAIM is being sent the line owes the release. -/
theorem NoRequests.lineTurn_owed (h : NoRequests s) (hl : s.isLineVoice n c v = true) (hq : s.claimQueued v = false)
    (hf : s.claimFlying v = true) : s.lineTurn n c v = s.setLine n { s.line n with owedRelease := true } := by
  have hacts := setLine_acts (n := n) (A := (· = v)) (s := s) rfl (State.claimFlying_iff.mp hf).1 n true
  have hline : s.releaseLineVoice n c v = s.setLine n { s.line n with owedRelease := true } := by
    unfold State.releaseLineVoice
    rw [hl, hq, hf]
    rfl
  unfold State.lineTurn
  rw [hline]
  exact (h.of_acts hacts).settlePasses

/-- Which entries have the CLAIM of a group is a matter of the queue's CLAIMs. -/
theorem any_isClaimOf (q : List Entry) (p : Entry → Bool) (g : Nat) :
    q.any (fun e => p e && e.frame.isClaimOf g) = (claimsIn q).any fun e => p e && e.frame.isClaimOf g := by
  unfold claimsIn
  rw [List.any_filter]
  apply List.any_congr rfl
  intro e
  cases hc : e.frame.isClaimOf g with
  | false => simp
  | true => simp [isClaim_of_isClaimOf hc]

theorem State.hasWaiting_of_claims (h : claimsIn t.queue = claimsIn s.queue) (g : Nat) :
    t.hasWaiting (Frame.isClaimOf g) = s.hasWaiting (Frame.isClaimOf g) := by
  unfold State.hasWaiting
  rw [any_isClaimOf, h, ← any_isClaimOf]

theorem State.hasFlying_of_claims (h : claimsIn t.queue = claimsIn s.queue) (g : Nat) :
    t.hasFlying (Frame.isClaimOf g) = s.hasFlying (Frame.isClaimOf g) := by
  unfold State.hasFlying
  rw [any_isClaimOf, h, ← any_isClaimOf]

/-- After a withdrawal no CLAIM of the group waits. -/
theorem State.claimWithdrawn_hasWaiting (s : State) (v : Fin 8) :
    ((s.claimWithdrawn v).freedLeft v).hasWaiting (Frame.isClaimOf (s.cueOf (s.voice v)).group) = false := by
  generalize hg : (s.cueOf (s.voice v)).group = g
  obtain ⟨o, ho⟩ := claimWithdrawn_frame s v
  rw [hg] at ho
  have hqueue : ((s.claimWithdrawn v).withFreed v).queue = (s.takeOut (Frame.isClaimOf g)).queue := by
    rw [ho]
    unfold State.withFreed State.clearOwedFor
    split <;> rfl
  have hclaims := ((s.claimWithdrawn v).freedLeft_announces v).claims
  rw [hqueue] at hclaims
  rw [State.hasWaiting_of_claims hclaims]
  unfold State.hasWaiting
  rw [State.takeOut_queue, List.any_filter, List.any_eq_false]
  intro e _
  cases e.waiting && e.frame.isClaimOf g <;> exact Bool.false_ne_true

end Sys2Proof.Machine
end

section
/-! PROOF. A line release acts on the request and the voices of the line (ReleaseActsOnTheLinesVoices). -/

namespace Sys2Proof.Machine

set_option Elab.async false

variable {n v : Fin 8} {c : Nat} {A : Fin 8 → Prop} {s x t : State}

/-! ## The turn of one voice between the turns of the others -/

/-- From s to t voice v has its turn at x, and only the voices that A picks, v not among them, have theirs before it and after it. -/
structure HasTurn (n : Fin 8) (c : Nat) (v : Fin 8) (A : Fin 8 → Prop) (s x t : State) : Prop where
  requests : NoRequests x
  before : ActsOnly n A s x
  after : ActsOnly n A (x.lineTurn n c v) t
  own : ¬A v

theorem HasTurn.toTurn (h : HasTurn n c v A s x t) : Untouched (s.voice v) (x.voice v) := h.before.others v h.own

theorem HasTurn.fromTurn (h : HasTurn n c v A s x t) : Untouched ((x.lineTurn n c v).voice v) (t.voice v) := h.after.others v h.own

/-- Voice v acts on no other voice. -/
theorem HasTurn.turn (h : HasTurn n c v A s x t) : ActsOnly n (· = v) x (x.lineTurn n c v) := h.requests.lineTurn_acts (A := (· = v)) rfl c

theorem ActsOnly.cueOf (h : ActsOnly n A s t) {w u : Voice} (hcue : u.cue = w.cue) : t.cueOf u = s.cueOf w := by
  unfold State.cueOf State.present? State.record
  rw [h.cues, hcue]

theorem HasTurn.cueOf (h : HasTurn n c v A s x t) : x.cueOf (x.voice v) = s.cueOf (s.voice v) := h.before.cueOf (by rw [h.toTurn.rest])

theorem HasTurn.isLineVoice (h : HasTurn n c v A s x t) (hl : s.isLineVoice n c v = true) : x.isLineVoice n c v = true := by
  rw [State.isLineVoice_iff] at hl ⊢
  rw [h.toTurn.rest]
  exact hl

/-- A turn that leaves the station as it is leaves the voice as it was. -/
theorem HasTurn.untouched (h : HasTurn n c v A s x t) (hv : (x.lineTurn n c v).voice v = x.voice v) :
    Untouched (s.voice v) (t.voice v) := by
  have hthen := h.fromTurn
  rw [hv] at hthen
  exact h.toTurn.trans hthen

theorem HasTurn.fade (h : HasTurn n c v A s x t) (hl : s.isLineVoice n c v = true) (hv : (s.voice v).state ≠ .claiming)
    (hm : (s.cueOf (s.voice v)).mode.tailEnd = none) :
    Untouched ((s.voice v).released (.fade (s.cueOf (s.voice v)).fadeOut)) (t.voice v) := by
  have hturn := h.requests.lineTurn_fade (h.isLineVoice hl) (by rw [h.toTurn.state]; exact hv) (by rw [h.cueOf]; exact hm)
  rw [h.cueOf] at hturn
  have hthen := h.fromTurn
  rw [hturn] at hthen
  exact (h.toTurn.released _).trans hthen

/-! ## The tail of a LOOP_TAIL cue (R56, R60) -/

theorem HasTurn.tail (h : HasTurn n c v A s x t) (hl : s.isLineVoice n c v = true) (hv : (s.voice v).state ≠ .claiming)
    (hm : (s.cueOf (s.voice v)).mode.tailEnd ≠ none) : x.lineTurn n c v = (x.releaseVoice v .tail).settlePasses :=
  State.lineTurn_tail (h.isLineVoice hl) (by rw [h.toTurn.state]; exact hv) (by rw [h.cueOf]; exact hm)

theorem HasTurn.tail_of_releasing (h : HasTurn n c v A s x t) (hl : s.isLineVoice n c v = true)
    (hs : (s.voice v).state = .releasing) (hr : ∀ r, (s.voice v).rate = some r → r.legal)
    (hm : (s.cueOf (s.voice v)).mode.tailEnd ≠ none) : Untouched (s.voice v) (t.voice v) := by
  refine h.untouched ?_
  rw [h.tail hl (by rw [hs]; exact nofun) hm, State.releaseVoice_tail_of_releasing (h.toTurn.state.trans hs) (by rw [h.toTurn.rest]; exact hr),
    h.requests.settlePasses]

theorem HasTurn.tail_of_priming (h : HasTurn n c v A s x t) (hl : s.isLineVoice n c v = true)
    (hs : (s.voice v).state = .priming) (hm : (s.cueOf (s.voice v)).mode.tailEnd ≠ none) : x.lineTurn n c v = x.beginTail v := by
  rw [h.tail hl (by rw [hs]; exact nofun) hm, State.releaseVoice_tail_of_priming (h.toTurn.state.trans hs),
    h.requests.beginTail_settled]

/-- Voice v of x runs by its tail. -/
def State.runsTail (x : State) (v : Fin 8) : State := (x.setVoice v (x.voice v).runTail).joinReleasing v

theorem State.runsTail_voice (x : State) (v : Fin 8) : (x.runsTail v).voice v = (x.voice v).runTail := x.voice_setVoice_self v _

theorem HasTurn.tail_of_sounding (h : HasTurn n c v A s x t) (hl : s.isLineVoice n c v = true)
    (hs : (s.voice v).state = .sounding) (hm : (s.cueOf (s.voice v)).mode.tailEnd ≠ none) :
    x.lineTurn n c v = (x.runsTail v).beginTail v := by
  have hacts : ActsOnly n (· = v) x (x.runsTail v) := runTail_acts rfl
  rw [h.tail hl (by rw [hs]; exact nofun) hm, State.releaseVoice_tail_of_sounding (h.toTurn.state.trans hs)]
  exact (h.requests.of_acts hacts).beginTail_settled v

theorem Untouched.runTail {w u : Voice} (h : Untouched w u) : Untouched w.runTail u.runTail := by
  refine ⟨?_, h.announce⟩
  rw [h.rest]
  rfl

theorem Untouched.cutBack {w u : Voice} (h : Untouched w u) (x : Nat) : Untouched (w.cutBack x) (u.cutBack x) := by
  refine ⟨?_, h.announce⟩
  rw [h.rest]
  rfl

theorem Untouched.tail_fields {w u : Voice} {x : Nat} (h : Untouched (w.runTail.cutBack x) u) :
    u.state = .releasing ∧ u.rate = some .tail ∧ u.level = w.level ∧ u.target = w.level ∧ u.tail = some x ∧
      u.playOffset = w.playOffset ∧ u.buffer = w.buffer.take (x - w.playOffset) := by
  rw [h.rest]
  exact ⟨rfl, rfl, rfl, rfl, rfl, rfl, rfl⟩

/-- Where a voice's tail begins is not about its fetch offset or its announce state. -/
theorem Untouched.crossing {w u : Voice} (h : Untouched w u) (q : Cue) (last : Nat) : crossing q u last = crossing q w last := by
  rw [h.rest]
  rfl

/-- A voice whose path has been rewritten already plays on (R60). -/
theorem HasTurn.tail_begun (h : HasTurn n c v A s x t) (hl : s.isLineVoice n c v = true)
    (hm : (s.cueOf (s.voice v)).mode.tailEnd ≠ none) (ht : (s.voice v).tail ≠ none) :
    ((s.voice v).state = .sounding → Untouched (s.voice v).runTail (t.voice v) ∧ v ∈ t.releasing) ∧
    ((s.voice v).state = .priming → Untouched (s.voice v) (t.voice v)) := by
  obtain ⟨X, hX⟩ := Option.ne_none_iff_exists'.mp ht
  have hx : (x.voice v).tail = some X := by
    rw [h.toTurn.rest]
    exact hX
  refine ⟨fun hs => ?_, fun hs => h.untouched ?_⟩
  · have hturn : x.lineTurn n c v = x.runsTail v := by
      rw [h.tail_of_sounding hl hs hm]
      exact State.beginTail_of_tail (by rw [State.runsTail_voice]; exact hx)
    have hafter := h.after
    rw [hturn] at hafter
    have hthen := hafter.others v h.own
    rw [State.runsTail_voice] at hthen
    exact ⟨h.toTurn.runTail.trans hthen, hafter.releasing v h.own (List.mem_append_right _ (List.mem_singleton.mpr rfl))⟩
  · rw [h.tail_of_priming hl hs hm, State.beginTail_of_tail hx]

/-- A tail begins at a PRIMING voice. -/
theorem HasTurn.tail_begins_priming (h : HasTurn n c v A s x t) (hl : s.isLineVoice n c v = true)
    (hs : (s.voice v).state = .priming) {last : Nat} (hm : (s.cueOf (s.voice v)).mode.tailEnd = some last)
    (ht : (s.voice v).tail = none) :
    ((t.voice v).state = .priming ∨ (t.voice v).state = .sounding) ∧
      (t.voice v).tail = some (crossing (s.cueOf (s.voice v)) (s.voice v) last) ∧
      (t.voice v).generation = (s.voice v).generation ∧ (t.voice v).playOffset = (s.voice v).playOffset := by
  have hx : (x.voice v).tail = none := by
    rw [h.toTurn.rest]
    exact ht
  have hbegin := (State.beginTail_begins (by rw [h.cueOf]; exact hm) hx).voice
  rw [← h.tail_of_priming hl hs (by rw [hm]; exact nofun), h.cueOf, h.toTurn.crossing] at hbegin
  generalize hw : (x.voice v).cutBack (crossing (s.cueOf (s.voice v)) (s.voice v) last) = w at hbegin
  have hu := hbegin.untouched.trans h.fromTurn
  have hstate : w.state = .priming := by
    rw [← hw]
    exact h.toTurn.state.trans hs
  have hw' : w.tail = some (crossing (s.cueOf (s.voice v)) (s.voice v) last) ∧ w.generation = (s.voice v).generation ∧
      w.playOffset = (s.voice v).playOffset := by
    rw [← hw, h.toTurn.rest]
    exact ⟨rfl, rfl, rfl⟩
  refine ⟨?_, ?_⟩
  · rw [hu.state]
    unfold Voice.tested
    split
    · exact .inr rfl
    · exact .inl hstate
  · rw [hu.rest, w.tested_frame]
    exact hw'

/-- A tail begins at a SOUNDING voice: the voice and its transfer are cut back to X. -/
theorem HasTurn.tail_begins_sounding (h : HasTurn n c v A s x t) (hl : s.isLineVoice n c v = true)
    (hs : (s.voice v).state = .sounding) {last : Nat} (hm : (s.cueOf (s.voice v)).mode.tailEnd = some last)
    (ht : (s.voice v).tail = none) :
    let X := crossing (s.cueOf (s.voice v)) (s.voice v) last
    Untouched ((s.voice v).runTail.cutBack X) (t.voice v) ∧ v ∈ t.releasing ∧
      ∀ y, s.link = some y → (t.voice v).fetchOffset = min (s.voice v).fetchOffset X ∧
        (y.slot = v → y.generation = (s.voice v).generation → t.link = some (y.dropFrom X)) := by
  intro X
  have hrun : Untouched (s.voice v).runTail ((x.runsTail v).voice v) := by
    rw [State.runsTail_voice]
    exact h.toTurn.runTail
  have hcue : (x.runsTail v).cueOf ((x.runsTail v).voice v) = s.cueOf (s.voice v) := by
    have hacts : ActsOnly n (fun u => A u ∨ u = v) s (x.runsTail v) :=
      (h.before.mono fun _ => .inl).trans (runTail_acts (.inr rfl))
    exact hacts.cueOf (by rw [hrun.rest]; rfl)
  have hbegin := State.beginTail_begins (s := x.runsTail v) (v := v) (by rw [hcue]; exact hm) (by rw [hrun.rest]; exact ht)
  have hX : crossing (s.cueOf (s.voice v)) (s.voice v).runTail last = X := rfl
  rw [← h.tail_of_sounding hl hs (by rw [hm]; exact nofun)] at hbegin
  obtain ⟨hvoice, hreleasing, hbusy⟩ := hbegin
  rw [hcue, hrun.crossing, hX] at hvoice hbusy
  rw [Voice.tested_of_not_priming _ (by rw [hrun.rest]; exact nofun)] at hvoice
  have hcut : Untouched ((s.voice v).runTail.cutBack X) (((x.runsTail v).voice v).cutBack X) := hrun.cutBack X
  refine ⟨(hcut.trans hvoice.untouched).trans h.fromTurn, h.after.releasing v h.own ?_, fun y hy => ?_⟩
  · rw [hreleasing]
    exact List.mem_append_right _ (List.mem_singleton.mpr rfl)
  · obtain ⟨hfetch, z, hz, hslot, hsame⟩ := h.before.busy y hy
    obtain ⟨hcutFetch, hne, hdrop⟩ := hbusy z hz
    obtain ⟨k, hk⟩ := Option.ne_none_iff_exists'.mp hne
    obtain ⟨hthen, z', hz', hslot', hsame'⟩ := h.after.busy k hk
    refine ⟨?_, fun hown hgen => ?_⟩
    · rw [hthen v h.own, hcutFetch, State.runsTail_voice]
      exact congrArg (min · X) (hfetch v h.own)
    · obtain rfl := hsame (by rw [hown]; exact h.own)
      have hdropped := hdrop hown (hgen.trans (by rw [hrun.generation]; rfl))
      rw [hk] at hdropped
      cases hdropped
      have hout : ¬A (Transfer.dropFrom _ X).slot := hown ▸ h.own
      rw [hz', hsame' hout]

/-! ## A CLAIMING voice (R30, R53) -/

/-- Where no voice that has its turn before or after is CLAIMING, no line and no CLAIM changes before the turn of v, nor after it. -/
theorem HasTurn.quiet (h : HasTurn n c v A s x t) (hq : ∀ a, A a → (s.voice a).state ≠ .claiming) :
    (claimsIn x.queue = claimsIn s.queue ∧ x.lines = s.lines) ∧
      claimsIn t.queue = claimsIn (x.lineTurn n c v).queue ∧ t.lines = (x.lineTurn n c v).lines :=
  ⟨h.before.quiet hq, h.after.quiet fun a ha hc => hq a ha (h.before.claiming a (h.turn.claiming a hc))⟩

/-- A CLAIM that waits is withdrawn. -/
theorem HasTurn.withdrawn (h : HasTurn n c v A s x t) (hl : s.isLineVoice n c v = true) (hs : (s.voice v).state = .claiming)
    (hq : ∀ a, A a → (s.voice a).state ≠ .claiming)
    (hw : s.hasWaiting (Frame.isClaimOf (s.cueOf (s.voice v)).group) = true) :
    t.voice v = Voice.freed (s.voice v).generation ∧
      t.hasWaiting (Frame.isClaimOf (s.cueOf (s.voice v)).group) = false ∧
      ((s.voice v).claimed = .openClaim → t.outcomes.get n.castSucc = some .withdrawn) := by
  obtain ⟨⟨hbefore, -⟩, hafter, -⟩ := h.quiet hq
  have hqueued : x.claimQueued v = true := by
    rw [State.claimQueued_iff, h.cueOf, State.hasWaiting_of_claims hbefore]
    exact ⟨h.toTurn.state.trans hs, hw⟩
  have hturn := h.requests.lineTurn_withdrawn (h.isLineVoice hl) hqueued
  have hvoice : (x.claimWithdrawn v).voice v = x.voice v := by
    obtain ⟨o, ho⟩ := claimWithdrawn_frame x v
    rw [ho]
    rfl
  have hfree : (x.lineTurn n c v).voice v = Voice.freed (s.voice v).generation := by
    rw [hturn, ((x.claimWithdrawn v).freedLeft_voice v v).1 rfl, hvoice, h.toTurn.generation]
  have hwaits := x.claimWithdrawn_hasWaiting v
  rw [← hturn, h.cueOf] at hwaits
  refine ⟨h.after.free v _ h.own hfree, (State.hasWaiting_of_claims hafter _).trans hwaits, fun hopen => ?_⟩
  have hsource : (x.voice v).source = .line n := (State.isLineVoice_iff.mp (h.isLineVoice hl)).2.1
  have houtcome := (claimWithdrawn_outcomes hsource).1 (by rw [h.toTurn.rest]; exact hopen)
  have hleft : ActsOnly n (· = v) (x.claimWithdrawn v) ((x.claimWithdrawn v).freedLeft v) := freedLeft_acts rfl
  rw [← hturn] at hleft
  have hgone : (x.lineTurn n c v).outcomes.get n.castSucc = some .withdrawn := hleft.outcome.elim (·.trans houtcome) id
  exact h.after.outcome.elim (·.trans hgone) id

/-- While the CLAIM is being sent the line owes the release. -/
theorem HasTurn.owed (h : HasTurn n c v A s x t) (hl : s.isLineVoice n c v = true) (hs : (s.voice v).state = .claiming)
    (hq : ∀ a, A a → (s.voice a).state ≠ .claiming)
    (hw : s.hasWaiting (Frame.isClaimOf (s.cueOf (s.voice v)).group) = false)
    (hf : s.hasFlying (Frame.isClaimOf (s.cueOf (s.voice v)).group) = true) :
    Untouched (s.voice v) (t.voice v) ∧ (t.line n).owedRelease = true := by
  obtain ⟨⟨hbefore, -⟩, -, hafter⟩ := h.quiet hq
  have hqueued : x.claimQueued v = false := by
    rw [Bool.eq_false_iff, Ne, State.claimQueued_iff, h.cueOf, State.hasWaiting_of_claims hbefore, hw]
    exact fun hno => Bool.false_ne_true hno.2
  have hflying : x.claimFlying v = true := by
    rw [State.claimFlying_iff, h.cueOf, State.hasFlying_of_claims hbefore]
    exact ⟨h.toTurn.state.trans hs, hf⟩
  have hturn := h.requests.lineTurn_owed (h.isLineVoice hl) hqueued hflying
  refine ⟨h.untouched (by rw [hturn]; rfl), ?_⟩
  have hline : t.line n = (x.lineTurn n c v).line n := by
    unfold State.line
    rw [hafter]
  rw [hline, hturn, State.line_setLine_self]

/-! ## The line and its request (R30) -/

/-- The station with line n released and its request WITHDRAWN, before its voices are visited. -/
def State.lineReleased (s : State) (n : Fin 8) : State := (s.setLine n ((s.line n).acting false)).withdrawRequest n

theorem State.lineReleased_eq (s : State) (n : Fin 8) :
    ∃ ls o, s.lineReleased n = { s with lines := ls, outcomes := o } ∧ ls.get n = { (s.line n).released with request := none } ∧
      (∀ m, m ≠ n → ls.get m = s.line m) ∧ ((s.line n).request ≠ none → o.get n.castSucc = some .withdrawn) := by
  have hline : (s.setLine n ((s.line n).acting false)).line n = (s.line n).acting false := s.line_setLine_self n _
  unfold State.lineReleased State.withdrawRequest
  rw [hline]
  split
  next r hr =>
    refine ⟨_, _, rfl, ?_, fun m hm => ?_, fun _ => Table.get_set_self _ _ _⟩
    · rw [Table.get_set_self]
      exact congrArg (fun l : Line => { l with request := none }) hline
    · exact (Table.get_set_ne _ _ (Ne.symm hm)).trans (Table.get_set_ne _ _ (Ne.symm hm))
  next hr =>
    refine ⟨_, s.outcomes, rfl, ?_, fun m hm => Table.get_set_ne _ _ (Ne.symm hm), fun h => absurd hr h⟩
    rw [Table.get_set_self, ← hr]
    rfl

theorem State.mem_lineVoices : v ∈ s.lineVoices n c ↔ s.isLineVoice n c v = true := by
  unfold State.lineVoices
  rw [List.mem_filter]
  exact and_iff_right (mem_slots v)

theorem State.lineVoices_nodup (s : State) (n : Fin 8) (c : Nat) : (s.lineVoices n c).Nodup :=
  List.Nodup.filter _ (by decide)

theorem State.releasePlay_eq (s : State) (n : Fin 8) (c : Nat) :
    s.releasePlay n c = visit (fun v t => State.lineTurn t n c v) ((s.lineReleased n).lineVoices n c) (s.lineReleased n) := rfl

/-- The visit of a line release, and the turn that each voice of the line has in it. -/
theorem NoRequests.visit_lineTurn (h : NoRequests s) {l : List (Fin 8)} (hl : l.Nodup)
    (ht : visit (fun v t => State.lineTurn t n c v) l s = t) :
    NoRequests t ∧ ActsOnly n (· ∈ l) s t ∧ ∀ v ∈ l, ∃ x, HasTurn n c v (fun u => u ∈ l ∧ u ≠ v) s x t := by
  have hchoice : ∀ (B : Fin 8 → Prop) (r : State) (k : Nat), NoRequests r →
      NoRequests { r with choices := k } ∧ ActsOnly n B r { r with choices := k } :=
    fun B r k hr => ⟨⟨hr.lines, hr.remote, hr.passes⟩, ActsOnly.of_same⟩
  have hturn : ∀ (B : Fin 8 → Prop) (a : Fin 8), B a → ∀ r, NoRequests r →
      NoRequests (State.lineTurn r n c a) ∧ ActsOnly n B r (State.lineTurn r n c a) :=
    fun B a ha r hr => ⟨hr.of_acts (hr.lineTurn_acts (n := n) ha c), hr.lineTurn_acts ha c⟩
  subst ht
  obtain ⟨hnone, hacts⟩ := visitFrom_within (f := fun v t => State.lineTurn t n c v) (R := ActsOnly n (· ∈ l)) ActsOnly.refl
    ActsOnly.trans (hchoice _) l.length l (hturn _) h
  refine ⟨hnone, hacts, fun v hv => ?_⟩
  obtain ⟨x, hx, hbefore, hafter⟩ := visitFrom_turn (f := fun v t => State.lineTurn t n c v)
    (R := ActsOnly n fun u => u ∈ l ∧ u ≠ v) ActsOnly.refl ActsOnly.trans (hchoice _) l.length l (Nat.le_refl _) hl hv
    (fun r hr => (hturn (· = v) v rfl r hr).1) (fun a ha hne => hturn _ a ⟨ha, hne⟩) h
  exact ⟨x, hx, hbefore, hafter, fun hno => hno.2 rfl⟩

theorem execPlayRelease_of_gate {c : Byte} (hm : s.mode ≠ .loading) (ha : (s.lineConfig n).action = .play c)
    (hg : (s.lineConfig n).gate = true) : exec (.playRelease n) s = .next (s.releasePlay n c.toNat) := by
  have hplay : (s.lineConfig n).action.playCue = some c.toNat := by rw [ha]; rfl
  have hguard : (s.isLoading || !s.isPlayLine n || !(s.lineConfig n).gate) = false := by
    simp [State.isLoading, State.isPlayLine, hm, hplay, hg]
  have hevent : s.releaseEvent n = s.releasePlay n c.toNat := by
    unfold State.releaseEvent
    rw [hplay]
  exact congrArg Host.Outcome.next ((if_neg (by rw [hguard]; exact Bool.false_ne_true)).trans hevent)

/-- Settles O33: each voice of the line has one turn (`NoRequests.visit_lineTurn`), which acts by its state (`HasTurn.fade`,
`HasTurn.tail_begins_sounding` and the others), while the turns of the others leave it untouched (`ActsOnly`). -/
theorem releaseActsOnTheLinesVoices : Obligations.ReleaseActsOnTheLinesVoices := by
  intro s n c hmode haction hgate hothers hremote hpasses hrates
  obtain ⟨ls, o, hbase, hline, hlines, houtcome⟩ := s.lineReleased_eq n
  have hnone : NoRequests (s.lineReleased n) := by
    rw [hbase]
    refine ⟨fun m => ?_, hremote, hpasses⟩
    by_cases hm : m = n
    · subst hm
      exact congrArg Line.request hline
    · exact (congrArg Line.request (hlines m hm)).trans (hothers m hm)
  have hkept : Kept s (s.releasePlay n c.toNat) := (kept_stable s).releasePlay n c.toNat (Kept.refl s)
  have hvisit := State.releasePlay_eq s n c.toNat
  generalize hl : (s.lineReleased n).lineVoices n c.toNat = l at hvisit
  have hmem : ∀ v, v ∈ l ↔ (s.lineReleased n).isLineVoice n c.toNat v = true := fun v => by
    rw [← hl]
    exact State.mem_lineVoices
  obtain ⟨hafter, hacts, hturns⟩ := hnone.visit_lineTurn (hl ▸ State.lineVoices_nodup _ n c.toNat) hvisit.symm
  clear hl hvisit
  rw [hbase] at hacts hturns hmem
  refine ⟨s.releasePlay n c.toNat, execPlayRelease_of_gate hmode haction hgate, ?_⟩
  generalize s.releasePlay n c.toNat = t at hkept hafter hacts hturns
  have hrest : t.line n = { ls.get n with owedRelease := (t.line n).owedRelease } := hacts.lines n
  rw [hline] at hrest
  refine ⟨hkept, hafter, hacts.startCounter, ?_, ?_, fun hr => ?_, fun v => ?_⟩
  · rw [hrest]
    rfl
  · rw [hrest]
  · exact hacts.outcome.elim (·.trans (houtcome hr)) id
  intro w u q ofLine only
  have hof : ofLine ↔ v ∈ l := by
    rw [hmem, State.isLineVoice_iff]
    exact Iff.rfl
  have hquiet : ofLine → only → ∀ a, a ∈ l ∧ a ≠ v → (s.voice a).state ≠ .claiming := fun hv honly a ⟨ha, hne⟩ hc => by
    have hcue : (s.voice a).cue = (s.voice v).cue := (State.isLineVoice_iff.mp ((hmem a).mp ha)).2.2.trans hv.2.2.symm
    exact hne (honly a hc (congrArg (fun k => ((s.present? k).getD Cue.blank).group) hcue))
  have hturn : ofLine → ∃ x, HasTurn n c.toNat v (fun u => u ∈ l ∧ u ≠ v) { s with lines := ls, outcomes := o } x t :=
    fun hv => hturns v (hof.mp hv)
  have hlineVoice : ofLine → State.isLineVoice { s with lines := ls, outcomes := o } n c.toNat v = true :=
    fun hv => (hmem v).mp (hof.mp hv)
  refine ⟨fun hv => hacts.others v (hv ∘ hof.mpr), fun hv hs hm => ?_, fun hv hs hm => ?_, fun hv hs last hm ht => ?_,
    fun hv hs last hm ht => ?_, fun hv hm ht => ?_, fun hv hs honly hw => ?_, fun hv hs honly hw hf => ?_⟩ <;>
    obtain ⟨x, hx⟩ := hturn hv
  · exact hx.fade (hlineVoice hv) hs hm
  · exact hx.tail_of_releasing (hlineVoice hv) hs (hrates v) hm
  · obtain ⟨hu, hreleasing, hbusy⟩ := hx.tail_begins_sounding (hlineVoice hv) hs hm ht
    obtain ⟨hstate, hrate, hlevel, htarget, htail, hoffset, hbuffer⟩ := hu.tail_fields
    exact ⟨hstate, hrate, hlevel, htarget, htail, hoffset, hbuffer, hreleasing, hbusy⟩
  · exact hx.tail_begins_priming (hlineVoice hv) hs hm ht
  · exact hx.tail_begun (hlineVoice hv) hm ht
  · exact hx.withdrawn (hlineVoice hv) hs (hquiet hv honly) hw
  · exact hx.owed (hlineVoice hv) hs (hquiet hv honly) hw hf

end Sys2Proof.Machine
end
section
/-! PROOF. Properties that every step keeps: what a property must bear for every operation of the station to keep it. -/

namespace Sys2Proof.Machine

set_option Elab.async false

/-! ## Single updates that the bounds are about -/

/-- The figures of a pair that LOADING leaves at their reset values (R118, R130). -/
structure Pair.Still (p : Pair) : Prop where
  prot : p.prot = .normal
  run : p.run = 0
  port : p.port = (0, 0)
  portNext : p.portNext = (0, 0)

/-- A change of a pair that keeps the law of its protection record and, in LOADING, its reset values (R118, R123, R130). -/
structure PairStep (s : State) (p p' : Pair) : Prop where
  law : PairLaw s.cfg p → PairLaw s.cfg p'
  still : s.mode = .loading → p.Still → p'.Still

/-- A change of the duck list that keeps its law, brings no entry of the station's own number, and leaves it empty in LOADING (R103,
R109). -/
structure DuckStep (s : State) (l : List DuckEntry) : Prop where
  law : DuckLaw s.ducks → DuckLaw l
  foreign : ∀ e ∈ l, (∃ x ∈ s.ducks, x.source = e.source) ∨ e.source ≠ s.cfg.number
  loading : s.mode = .loading → s.ducks = [] → l = []

/-- A property that every single update of a step keeps. Beyond serving, releasing and freeing (`Stable`), which touch neither the mode,
the configuration, the duck list, the pairs nor the receiver, these are the updates of LDR, of LVL, of OUT and of the wire. -/
structure Steady (P : State → Prop) : Prop extends Stable P where
  reset : P State.reset
  same : ∀ {s t : State}, P s → t.mode = s.mode → t.cfg = s.cfg → t.remote = s.remote → t.ducks = s.ducks → t.pgm = s.pgm →
    t.floor = s.floor → t.queue = s.queue → t.rx = s.rx → P t
  config : ∀ {s : State} c, P s → s.mode = .loading → P { s with cfg := c }
  leave : ∀ {s : State} m, P s → m ≠ .loading → P { s with mode := m }
  seek : ∀ {s : State}, P s → P { s with rx := .seekingIdle }
  listen : ∀ {s : State} r, P s → (s.rx ≠ .seekingIdle ∨ ∀ e ∈ s.queue, e.inFlight = false) → P { s with rx := r }
  filter : ∀ {s : State} p, P s → P { s with queue := s.queue.filter p }
  remake : ∀ {s : State} (f : Entry → Entry), (∀ e, (f e).frame = e.frame) →
    (∀ e, (f e).inFlight = true → e.inFlight = true) → P s → P { s with queue := s.queue.map f }
  send : ∀ {s : State} f, P s → s.mayOffer f → P (s.offer f)
  begins : ∀ {s : State} i, P s → (∀ e ∈ s.queue, e.inFlight = false) → P (s.begin i)
  remotes : ∀ {s : State} (r : List RemoteEntry), P s → r.length ≤ s.remote.length ∨ r.length ≤ Config.remoteSize →
    P { s with remote := r }
  pair : ∀ {s : State} o p, P s → PairStep s (s.pair o) p → P (s.setPair o p)
  duckList : ∀ {s : State} l, P s → DuckStep s l → P { s with ducks := l }

/-! ## What each update of a pair keeps (R118 to R129) -/

variable {s : State} {p q : Pair}

/-- A change of neither the protection state, the attempts, the run nor the port. -/
theorem PairStep.of_same (prot : q.prot = p.prot := by rfl) (attempts : q.attempts = p.attempts := by rfl)
    (run : q.run = p.run := by rfl) (port : q.port = p.port := by rfl) (portNext : q.portNext = p.portNext := by rfl) :
    PairStep s p q where
  law := fun h => ⟨attempts ▸ h.attempts, by rw [prot, attempts]; exact h.tripped⟩
  still := fun _ h => ⟨prot.trans h.prot, run.trans h.run, port.trans h.port, portNext.trans h.portNext⟩

theorem PairStep.refl (s : State) (p : Pair) : PairStep s p p := PairStep.of_same

theorem PairStep.trans {r : Pair} (h : PairStep s p q) (k : PairStep s q r) : PairStep s p r :=
  ⟨k.law ∘ h.law, fun hm => k.still hm ∘ h.still hm⟩

theorem forgive_step (s : State) (p : Pair) : PairStep s p p.forgive := by
  unfold Pair.forgive
  split
  · exact ⟨fun _ => ⟨Nat.zero_le _, fun _ _ => Nat.zero_lt_succ _⟩, fun _ h => ⟨h.prot, h.run, h.port, h.portNext⟩⟩
  · exact PairStep.refl s p

/-- A pair trips to TRIPPED only while it has an attempt left under SHORT and LONG (R125). -/
theorem trip_step (hd : p.tripDue = true) : PairStep s p (p.trip s.cfg) where
  law := fun h => by
    refine ⟨h.attempts, fun ht hr => ?_⟩
    have hx : ¬p.exhausted s.cfg = true := fun hx => by
      rw [Pair.trip, if_pos hx] at ht
      cases ht
    rw [Pair.exhausted, Bool.and_eq_true, not_and, Bool.or_eq_true, decide_eq_true_eq, decide_eq_true_eq, decide_eq_true_eq] at hx
    exact Nat.lt_of_not_le (hx hr)
  still := fun _ h => by
    rw [Pair.tripDue, Bool.and_eq_true, decide_eq_true_eq, decide_eq_true_eq, h.run] at hd
    exact absurd hd.2 (by decide)

theorem forgive_tripDue (p : Pair) : p.forgive.tripDue = p.tripDue := by
  unfold Pair.forgive
  split <;> rfl

/-- A pair comes back with one more attempt only under SHORT and LONG, where it had one left (R126). -/
theorem recover_step (hw : p.waitOver s.cfg = true) : PairStep s p (p.recover s.cfg) := by
  have hover : p.prot = .tripped ∧ s.cfg.recovery ≠ .off := by
    unfold Pair.waitOver at hw
    cases hr : s.cfg.recovery <;> simp only [hr, Recovery.wait, Bool.and_eq_true, decide_eq_true_eq, reduceCtorEq] at hw
    all_goals exact ⟨hw.1, nofun⟩
  refine ⟨fun h => ⟨?_, nofun⟩, fun _ h => absurd (hover.1.symm.trans h.prot) nofun⟩
  change (if s.cfg.recovery = .endless then p.attempts else p.attempts + 1) ≤ _
  split
  · exact h.attempts
  next he =>
    refine h.tripped hover.1 ?_
    cases hr : s.cfg.recovery
    · exact absurd hr hover.2
    · exact .inl rfl
    · exact .inr rfl
    · exact absurd hr he

theorem allStop_step (s : State) (p : Pair) : PairStep s p p.allStop :=
  ⟨fun _ => ⟨Nat.zero_le _, nofun⟩, fun _ h => ⟨rfl, rfl, h.port, h.portNext⟩⟩

/-- In LOADING a port goes on sending 0 (R118). -/
theorem mute_step (s : State) (p : Pair) : PairStep s p p.mute :=
  ⟨fun h => ⟨h.attempts, h.tripped⟩, fun _ h => ⟨h.prot, h.run, h.portNext, rfl⟩⟩

/-- Out of LOADING a change that keeps the protection state and the attempts keeps all. -/
theorem PairStep.of_mode (hm : s.mode ≠ .loading) (prot : q.prot = p.prot := by rfl) (attempts : q.attempts = p.attempts := by rfl) :
    PairStep s p q :=
  ⟨fun h => ⟨attempts ▸ h.attempts, by rw [prot, attempts]; exact h.tripped⟩, fun h => absurd h hm⟩

theorem boundary_step (hm : s.mode ≠ .loading) (p : Pair) (m : Bool) : PairStep s p (p.boundary s.cfg m) := by
  have h : (p.countProtection s.cfg).prot = p.prot ∧ (p.countProtection s.cfg).attempts = p.attempts := by
    unfold Pair.countProtection
    repeat' split
    all_goals exact ⟨rfl, rfl⟩
  exact PairStep.of_mode hm h.1 h.2

/-! ## What each update of the duck list keeps (R103 to R109) -/

theorem DuckStep.of_sublist {l : List DuckEntry} (h : l.Sublist s.ducks) : DuckStep s l where
  law := fun k => ⟨Nat.le_trans h.length_le k.size, k.keys.sublist h⟩
  foreign := fun e he => .inl ⟨e, h.subset he, rfl⟩
  loading := fun _ hd => List.sublist_nil.mp (hd ▸ h)

theorem liveDucks_sublist (l : List DuckEntry) : (liveDucks l).Sublist l := List.filter_sublist

/-- A change of the entries that keeps their keys. -/
theorem DuckStep.map {l : List DuckEntry} (h : l.Sublist s.ducks) (f : DuckEntry → DuckEntry)
    (hf : ∀ e, (f e).source = e.source ∧ (f e).tag = e.tag) : DuckStep s (l.map f) where
  law := fun k => by
    have hl := (DuckStep.of_sublist h).law k
    refine ⟨by rw [List.length_map]; exact hl.size, ?_⟩
    rw [List.pairwise_map]
    exact hl.keys.imp fun {a b} hab => by rwa [(hf a).1, (hf a).2, (hf b).1, (hf b).2]
  foreign := fun e he => by
    obtain ⟨x, hx, rfl⟩ := List.mem_map.mp he
    exact .inl ⟨x, h.subset hx, (hf x).1.symm⟩
  loading := fun _ hd => by
    have hl : l = [] := List.sublist_nil.mp (hd ▸ h)
    rw [hl, List.map_nil]

/-- The smallest depth of a list is that of an entry in it. -/
theorem exists_depth_eq_leastDepth {l : List DuckEntry} (h : l ≠ []) : ∃ e ∈ l, e.depth = leastDepth l := by
  induction l with
  | nil => exact absurd rfl h
  | cons e rest ih =>
    cases rest with
    | nil => exact ⟨e, List.mem_cons_self, rfl⟩
    | cons x rest =>
      obtain ⟨y, hy, hd⟩ := ih nofun
      change ∃ z ∈ e :: x :: rest, z.depth = min e.depth (leastDepth (x :: rest))
      rcases Nat.le_total e.depth (leastDepth (x :: rest)) with hle | hle
      · exact ⟨e, List.mem_cons_self, (Nat.min_eq_left hle).symm⟩
      · exact ⟨y, List.mem_cons_of_mem _ hy, hd.trans (Nat.min_eq_right hle).symm⟩

theorem DuckLaw.append {l : List DuckEntry} (h : DuckLaw l) (e : DuckEntry) (hroom : l.length < Config.duckSize)
    (hnew : ∀ x ∈ l, ¬(x.source = e.source ∧ x.tag = e.tag)) : DuckLaw (l ++ [e]) where
  size := by
    rw [List.length_append]
    exact hroom
  keys := by
    rw [List.pairwise_append]
    refine ⟨h.keys, List.pairwise_singleton _ _, fun x hx y hy => ?_⟩
    rw [List.mem_singleton.mp hy]
    exact hnew x hx

theorem DuckLaw.sublist {l m : List DuckEntry} (h : DuckLaw l) (hs : m.Sublist l) : DuckLaw m :=
  ⟨Nat.le_trans hs.length_le h.size, h.keys.sublist hs⟩

/-- A new entry that meets the list joins it or not, and may take the place of another (R104, R105). -/
theorem addDuck_cases (l : List DuckEntry) (e : DuckEntry) :
    (∃ m, m.Sublist l ∧ (l.length ≤ Config.duckSize → m.length < Config.duckSize) ∧ (addDuck l e).1 = m ++ [e]) ∨
      (addDuck l e).1 = l := by
  unfold addDuck
  split
  next hroom => exact .inl ⟨l, List.Sublist.refl l, fun _ => hroom, rfl⟩
  next hfull =>
    split
    next hd =>
      refine .inl ⟨_, List.eraseP_sublist, fun hsize => ?_, rfl⟩
      have hpos : 0 < l.length := Nat.lt_of_lt_of_le (by decide) (Nat.le_of_not_lt hfull)
      obtain ⟨x, hx, hxd⟩ := exists_depth_eq_leastDepth (List.ne_nil_of_length_pos hpos)
      rw [List.length_eraseP_of_mem hx (by rw [hxd]; exact beq_self_eq_true _)]
      omega
    · exact .inr rfl

theorem DuckEntry.hasKey_iff (source tag : Nat) (e : DuckEntry) :
    e.hasKey source tag = true ↔ e.source = source ∧ e.tag = tag := by
  rw [DuckEntry.hasKey, Bool.and_eq_true, beq_iff_eq, beq_iff_eq]

/-- Out of LOADING an entry of another station's number meets the list. -/
theorem addDuck_step (hm : s.mode ≠ .loading) (e : DuckEntry) (he : e.source ≠ s.cfg.number)
    (hnew : (liveDucks s.ducks).any (DuckEntry.hasKey e.source e.tag) = false) : DuckStep s (addDuck (liveDucks s.ducks) e).1 := by
  have hlive := liveDucks_sublist s.ducks
  rcases addDuck_cases (liveDucks s.ducks) e with ⟨m, hsub, hsize, heq⟩ | heq <;> rw [heq]
  · refine ⟨fun h => ?_, fun x hx => ?_, fun h => absurd h hm⟩
    · refine (h.sublist (hsub.trans hlive)).append e (hsize (h.sublist hlive).size) fun x hx hkey => ?_
      exact List.any_eq_false.mp hnew x (hsub.subset hx) ((DuckEntry.hasKey_iff _ _ x).mpr hkey)
    · rcases List.mem_append.mp hx with hx | hx
      · exact .inl ⟨x, (hsub.trans hlive).subset hx, rfl⟩
      · rw [List.mem_singleton.mp hx]
        exact .inr he
  · exact DuckStep.of_sublist hlive

end Sys2Proof.Machine
end
section
/-! PROOF. What every operation of the station does keeps a steady property: boundaries, instants, frames and the wire. -/

namespace Sys2Proof.Machine

set_option Elab.async false

variable {P : State → Prop} (hP : Steady P) {s t : State}
include hP

/-- A change of none of the state that `Steady.same` names. -/
theorem Steady.congr (h : P s) (mode : t.mode = s.mode := by rfl) (cfg : t.cfg = s.cfg := by rfl)
    (remote : t.remote = s.remote := by rfl) (ducks : t.ducks = s.ducks := by rfl) (pgm : t.pgm = s.pgm := by rfl)
    (floor : t.floor = s.floor := by rfl) (queue : t.queue = s.queue := by rfl) (rx : t.rx = s.rx := by rfl) : P t :=
  hP.same h mode cfg remote ducks pgm floor queue rx

theorem Steady.withTmb (b : Timebase) (h : P s) : P { s with tmb := b } := hP.congr h

theorem Steady.clear (h : P s) : P { s with queue := [] } := by
  have hf := hP.filter (fun _ => false) h
  rwa [List.filter_false] at hf

/-! ## Output pairs and what the boundaries made due (R122 to R129; log entry 2) -/

theorem Steady.latchDeadAir (o : OutPair) (h : P s) : P (s.latchDeadAir o) := by
  unfold State.latchDeadAir
  split
  · exact hP.latch _ (hP.pair o _ h PairStep.of_same)
  · exact h

theorem Steady.forgivePair (o : OutPair) (h : P s) : P (s.setPair o (s.pair o).forgive) := hP.pair o _ h (forgive_step s _)

theorem Steady.tripPair (o : OutPair) (h : P s) : P (s.tripPair o) := by
  unfold State.tripPair
  split
  next hd =>
    exact hP.latch _ (hP.pair o _ h ((forgive_step s _).trans (trip_step (by rw [forgive_tripDue]; exact hd))))
  · exact h

theorem Steady.recoverPair (o : OutPair) (h : P s) : P (s.recoverPair o) := by
  unfold State.recoverPair
  split
  next hw => exact hP.pair o _ h (recover_step hw)
  · exact h

theorem Steady.settlePair (o : OutPair) (h : P s) : P (s.settlePair o) :=
  hP.recoverPair o (hP.tripPair o (hP.forgivePair o (hP.latchDeadAir o h)))

theorem Steady.endJoinWait (h : P s) : P s.endJoinWait := by
  unfold State.endJoinWait
  split
  · exact hP.congr (hP.leave .run h nofun)
  · exact h

theorem Steady.settle (h : P s) : P s.settle := by
  have h1 := inOrder_keeps (fun n _ ht => hP.takeLineEvent n ht) slots h
  have h2 := inOrder_keeps (fun v _ ht => hP.endData v ht) slots h1
  have h3 := inOrder_keeps (fun n t ht => hP.expireLine (fun r => t.ripe r.age) n ht) slots h2
  have h4 := inOrder_keeps (fun i t ht => hP.expireRemote (fun r => t.ripe r.age) i ht) [3, 2, 1, 0] h3
  have h5 := hP.endJoinWait (hP.settlePair .floor (hP.settlePair .pgm h4))
  exact hP.duckList _ (inOrder_keeps (fun n _ ht => hP.endPenalty n ht) slots h5) (DuckStep.of_sublist (liveDucks_sublist _))

/-! ## The instant and the boundaries (R1, R13) -/

theorem Steady.dropOver (h : P s) : P s.dropOver := by
  obtain ⟨-, e⟩ | ⟨-, e⟩ := s.dropOver_cases <;> rw [e]
  · exact h
  · exact hP.congr (hP.filter (fun e => !e.dropped) h)

theorem Steady.flagMayEnd (h : P s) : P s.flagMayEnd := by
  obtain ⟨-, e⟩ | ⟨-, e | e⟩ := s.flagMayEnd_cases <;> rw [e]
  · exact h
  · exact hP.choices _ h
  · exact hP.dropOver (hP.choices _ h)

/-- Both pairs take one step of OUT each. -/
theorem Steady.bothPairs (h : P s) {p q : Pair} (hp : PairStep s s.pgm p) (hq : PairStep s s.floor q) :
    P { s with pgm := p, floor := q } :=
  hP.pair (s := s.setPair .pgm p) .floor q (hP.pair .pgm p h hp) ⟨hq.law, hq.still⟩

theorem Steady.mixInstant (h : P s) (hm : s.mode ≠ .loading) : P s.mixInstant :=
  hP.latchIf _ _ (hP.bothPairs (hP.voices s.tickVoices h) (PairStep.of_mode hm) (PairStep.of_mode hm))

theorem Steady.muted (h : P s) : P { s with pgm := s.pgm.mute, floor := s.floor.mute } :=
  hP.bothPairs h (mute_step s _) (mute_step s _)

omit hP in
theorem not_loading_of_isLoading (h : ¬s.isLoading = true) : s.mode ≠ .loading := fun hm => h (decide_eq_true hm)

/-- The instant, once what was due is done and the instant is counted. -/
theorem Steady.playInstant (h : P s) :
    P (if s.isLoading then { s with pgm := s.pgm.mute, floor := s.floor.mute }
      else s.flagMayEnd.mixInstant.arbitrate.freeRunOut) := by
  split
  · exact hP.muted h
  next hm =>
    refine hP.freeRunOut (hP.arbitrate (hP.mixInstant (hP.flagMayEnd h) ?_))
    obtain ⟨q, x, n, e, -⟩ := s.flagMayEnd_eq
    rw [e]
    exact not_loading_of_isLoading hm

theorem Steady.sampleInstant (h : P s) : P s.sampleInstant := by
  have h1 := hP.settle h
  unfold State.sampleInstant
  generalize s.settle = u at h1 ⊢
  exact hP.playInstant (hP.withTmb u.tmb.countSample h1)

theorem Steady.ageRequests (h : P s) : P s.ageRequests :=
  hP.lines _ (hP.remotes _ h (.inl (Nat.le_of_eq (List.length_map _))))

theorem Steady.judgeBlock (h : P s) (hm : s.mode ≠ .loading) : P s.judgeBlock := by
  unfold State.judgeBlock
  obtain ⟨g, hg⟩ := s.latchIf_eq (s.monitoring && s.pgm.isHot s.cfg) (hotFlag .pgm)
  rw [hg]
  obtain ⟨g', hg'⟩ := State.latchIf_eq (s := { s with flags := g }) (s.monitoring && s.floor.isHot s.cfg) (hotFlag .floor)
  rw [hg']
  exact hP.congr (hP.bothPairs h (boundary_step hm s.pgm s.monitoring) (boundary_step hm s.floor s.monitoring))

omit hP in
theorem sampleLines_mode (s : State) (levels : Byte) : (s.sampleLines levels).mode = s.mode := by
  obtain ⟨L, e, -⟩ := State.sampleLines_eq (s := s) levels
  rw [e]

/-- The block boundary, once what was due is done and the boundary is counted. -/
theorem Steady.endBlock (levels : Byte) (h : P s) :
    P (if s.isLoading then s else (s.sampleLines levels).ageRequests.judgeBlock) := by
  split
  · exact h
  next hm =>
    refine hP.judgeBlock (hP.ageRequests (hP.sampleLines levels h)) ?_
    exact fun hl => not_loading_of_isLoading hm ((sampleLines_mode _ levels).symm.trans hl)

theorem Steady.blockBoundary (levels : Byte) (h : P s) : P (s.blockBoundary levels) := by
  have h1 := hP.settle h
  unfold State.blockBoundary
  generalize s.settle = u at h1 ⊢
  exact hP.endBlock levels (hP.withTmb u.tmb.countBlock h1)

theorem Steady.countDucks (h : P s) : P s.countDucks :=
  hP.duckList _ h (DuckStep.map (List.Sublist.refl _) _ fun _ => ⟨rfl, rfl⟩)

/-- The hold-unit boundary, once what was due is done. -/
theorem Steady.countUnit (h : P s) : P (if s.isLoading then s else s.countPenalties.countHolds.countDucks) := by
  split
  · exact h
  · exact hP.countDucks (hP.countHolds (hP.lines _ h))

theorem Steady.holdUnitBoundary (h : P s) : P s.holdUnitBoundary := by
  have h1 := hP.settle h
  unfold State.holdUnitBoundary
  generalize s.settle = u at h1 ⊢
  exact hP.countUnit (hP.withTmb { u.tmb with blocks := 0 } h1)

/-! ## LDR (R161 to R169) -/

theorem Steady.useConfig (h : P s) (hm : s.mode = .loading) (c : StationConfig) (b : Bool) : P (s.useConfig c b) :=
  hP.congr (hP.config c h hm)

theorem Steady.testConfig (h : P s) (hm : s.mode = .loading) (bytes : List Byte) : P (s.testConfig bytes) := by
  unfold State.testConfig
  split
  · split
    · exact hP.useConfig h hm _ _
    · exact hP.congr h
  · split
    · exact hP.useConfig h hm _ _
    · exact hP.useConfig h hm _ _
  · exact h

theorem Steady.leaveLoading (h : P s) : P s.leaveLoading :=
  hP.congr (hP.seek (hP.leave (if s.cfg.number = 0 then .silent else .joining) h (by split <;> nofun)))

theorem Steady.enterSilent (h : P s) : P s.enterSilent :=
  hP.visitServing (fun _ _ ht => hP.withdraw _ _ ht) _
    (hP.congr (s := { s with mode := .silent, queue := [] }) (hP.clear (hP.leave .silent h nofun)))

theorem Steady.offerStatus (h : P s) : P s.offerStatus := hP.send _ h trivial

theorem Steady.duplicateFrame (fresh : Bool) (h : P s) : P (s.duplicateFrame fresh) := by
  unfold State.duplicateFrame
  split
  · exact hP.enterSilent h
  · split
    · exact hP.offerStatus h
    · exact hP.enterSilent h
  · exact h
  · exact h

/-! ## Completed frames (R33, R65, R70, R71, R104, R106, R107, R141 to R143) -/

theorem Steady.allStop (k : Nat) (h : P s) : P (s.allStop k) := by
  refine hP.visit (fun p _ ht => hP.allStopPart k p ht) _ ?_
  exact hP.bothPairs (hP.tripPair .floor (hP.tripPair .pgm h)) (allStop_step _ _) (allStop_step _ _)

theorem Steady.stopFrame (target cue : Byte) (fade : BitVec 3) (h : P s) : P (s.stopFrame target cue fade) := by
  unfold State.stopFrame
  split
  · split
    · exact hP.allStop _ h
    · exact hP.stopCue _ _ h
  · exact h

theorem Steady.fireFrame (src : Nat) (target cue : Byte) (h : P s) : P (s.fireFrame src target cue) := by
  unfold State.fireFrame State.fireCue
  split
  · split
    · exact h
    · split
      next hroom =>
        refine hP.runPass (hP.remotes _ h (.inr ?_))
        rw [List.length_append]
        exact hroom
      · exact hP.latch _ h
  · exact h

theorem Steady.askFrame (target : Byte) (h : P s) : P (s.askFrame target) := by
  unfold State.askFrame
  split
  · exact hP.offerStatus h
  · exact h

theorem Steady.duckStart {src : Nat} (hs : src ≠ s.cfg.number) (hm : s.mode ≠ .loading) (tag : Nat) (emit : ClassSet)
    (depth hold : Nat) (h : P s) : P (s.duckStart src tag emit depth hold) := by
  have hlive := liveDucks_sublist s.ducks
  unfold State.duckStart
  dsimp only
  split
  · exact hP.duckList _ h (DuckStep.of_sublist (List.eraseP_sublist.trans hlive))
  · split
    · refine hP.duckList _ h (DuckStep.map hlive _ fun e => ?_)
      split <;> exact ⟨rfl, rfl⟩
    next hnew => exact hP.latchIf _ _ (hP.duckList _ h (addDuck_step hm _ hs (by simpa using hnew)))

theorem Steady.applyForeign {src : Nat} (hs : src ≠ s.cfg.number) (hm : s.mode ≠ .loading) (f : Frame) (h : P s) :
    P (s.applyForeign src f) := by
  have hlive := liveDucks_sublist s.ducks
  cases f
  case claim => exact hP.foreignClaim _ _ h
  case held => exact hP.foreignHeld _ _ h
  case release => exact hP.releaseGroup _ h
  case start => exact hP.chokeGroup _ (hP.duckStart hs hm _ _ _ _ h)
  case endFrame => exact hP.duckList _ h (DuckStep.of_sublist (List.eraseP_sublist.trans hlive))
  case hold =>
    refine hP.duckList _ h (DuckStep.map hlive _ fun e => ?_)
    split <;> exact ⟨rfl, rfl⟩
  case stop => exact hP.stopFrame _ _ _ h
  case fire => exact hP.fireFrame _ _ _ h
  case arm => exact hP.armGroups _ h
  case disarm => exact hP.disarmGroups _ h
  case ask => exact hP.askFrame _ h
  case status => exact h

theorem Steady.countFrame (h : P s) : P s.countFrame := hP.congr (hP.seek h)

omit hP in
theorem ne_number_of_not_own {source : BitVec 5} (h : ¬s.ownNumber source = true) (hn : ¬isNoStation source = true) :
    source.toNat ≠ s.cfg.number := fun e => h (by
  rw [State.ownNumber, e, Bool.eq_false_iff.mpr hn, beq_self_eq_true]
  rfl)

theorem Steady.receiveFrame (source : BitVec 5) (f : Option Frame) (h : P s) : P (s.receiveFrame source f) := by
  have hc := hP.countFrame h
  unfold State.receiveFrame
  split
  · exact h
  next hr =>
    split
    · exact hP.duplicateFrame _ hc
    next hown =>
      split
      · exact hc
      next hno =>
        split
        · exact hc
        · refine hP.applyForeign (s := s.countFrame) (ne_number_of_not_own hown hno) ?_ _ hc
          rw [Bool.not_eq_true, Bool.not_eq_false', State.canReceive, Bool.and_eq_true, Bool.and_eq_true, Bool.not_eq_true'] at hr
          exact not_loading_of_isLoading (Bool.eq_false_iff.mp hr.1.1)

theorem Steady.flightDone (heard : Bool) (h : P s) : P (s.flightDone heard) :=
  hP.latchIf _ _ (hP.congr (hP.seek (hP.filter Entry.waiting h)))

omit hP in
theorem flightDone_waits (s : State) (heard : Bool) : ∀ e ∈ (s.flightDone heard).queue, e.inFlight = false := by
  obtain ⟨g, e⟩ := State.latchIf_eq
    (s := { s with queue := s.queue.filter fun e => e.waiting, tx := .idle, rx := .seekingIdle, idleCount := 0 }) (!heard) .unheard
  unfold State.flightDone
  rw [e]
  intro x hx
  exact (Bool.not_eq_true' _).mp (List.mem_filter.mp hx).2

omit hP in
theorem hasFlying_of_waits (h : ∀ e ∈ s.queue, e.inFlight = false) (p : Frame → Bool) : s.hasFlying p = false := by
  unfold State.hasFlying
  rw [List.any_eq_false]
  intro e he
  rw [h e he]
  exact Bool.false_ne_true

theorem Steady.ownStart (tag hold : Nat) (h : P s) (hw : ∀ e ∈ s.queue, e.inFlight = false) : P (s.ownStart tag hold) := by
  unfold State.ownStart
  dsimp only
  split
  · exact hP.setVoice _ _ h
  · split
    · split
      · exact hP.send _ (hP.owedEnd none h) (hasFlying_of_waits hw _)
      · exact h
    · exact h

theorem Steady.statusDone (b2 b3 : Byte) (h : P s) : P (s.statusDone b2 b3) := by
  refine hP.congr (inOrder_keeps (fun f u hu => ?_) allFlags h)
  unfold State.clearCarried
  split
  · exact hP.flags _ hu
  · exact hu

theorem Steady.joinStatusDone (h : P s) : P s.joinStatusDone := by
  unfold State.joinStatusDone
  split
  · exact hP.congr h
  · exact h

theorem Steady.applyOwn (f : Frame) (h : P s) (hw : ∀ e ∈ s.queue, e.inFlight = false) : P (s.applyOwn f) := by
  cases f
  case claim => exact hP.ownClaim _ h
  case held => exact hP.ownHeld _ h
  case release => exact hP.releaseGroup _ h
  case start => exact hP.ownStart _ _ h hw
  case hold => exact hP.ownHold _ _ h
  case stop => exact hP.stopFrame _ _ _ h
  case fire => exact hP.fireFrame _ _ _ h
  case arm => exact hP.armGroups _ h
  case disarm => exact hP.disarmGroups _ h
  case status => exact hP.joinStatusDone (hP.statusDone _ _ h)
  all_goals exact h

theorem Steady.completeOwn (heard : Bool) (p : Frame → Bool) (h : P s) : P (s.completeOwn heard p) := by
  unfold State.completeOwn
  split
  · split
    · exact hP.applyOwn _ (hP.flightDone heard h) (flightDone_waits s heard)
    · exact h
  · exact h

theorem Steady.completeFrame (sender : Sender) (f : Frame) (h : P s) : P (s.completeFrame sender f) := by
  cases sender
  · exact hP.completeOwn _ (fun x => x == f) h
  · exact hP.receiveFrame _ (some f) h

/-! ## The wire (R131 to R140, R149, R150) -/

theorem Steady.offerJoin (h : P s) : P s.offerJoin := by
  unfold State.offerJoin
  split
  · exact hP.offerStatus (hP.congr h)
  · exact h

theorem Steady.dropped (f : Frame) (h : P s) : P (s.dropped f) := by
  cases f <;> unfold State.dropped <;> dsimp only
  case claim =>
    split
    · exact hP.settlePasses (hP.withdraw _ _ h)
    · exact h
  case start g c t em d hd =>
    have hl := hP.loseStart t.toNat h
    split
    · split
      · exact hP.owedEnd none hl
      · exact hl
    · exact hl
  case status =>
    split
    · exact hP.enterSilent h
    · exact h
  all_goals exact h

theorem Steady.driveError (h : P s) : P s.driveError := hP.congr (hP.seek h)

theorem Steady.dropFlight (f : Frame) (h : P s) : P (s.dropFlight f) :=
  hP.dropped f (hP.latch _ (hP.remake droppedEntry (fun e => (droppedEntry_eq e).1)
    (fun e he => by rwa [(droppedEntry_eq e).2] at he) h))

omit hP in
theorem returned_waits (n : Nat) (e : Entry) : (returned n e).frame = e.frame ∧ (returned n e).inFlight = false := by
  unfold returned
  split
  · exact ⟨rfl, rfl⟩
  next h => exact ⟨rfl, Bool.eq_false_iff.mpr h⟩

theorem Steady.queueReturned (n : Nat) (h : P s) : P { s with queue := s.queue.map (returned n) } :=
  hP.remake (returned n) (fun e => (returned_waits n e).1) (fun e he => by rw [(returned_waits n e).2] at he; cases he) h

omit hP in
theorem mem_returned {n : Nat} {q : List Entry} {e : Entry} (he : e ∈ q.map (returned n)) : e.inFlight = false := by
  obtain ⟨x, -, rfl⟩ := List.mem_map.mp he
  exact (returned_waits n x).2

theorem Steady.returnFlight (f : Frame) (n : Nat) (h : P s) : P (s.returnFlight f n) := hP.heldOff f (hP.queueReturned n h)

omit hP in
/-- Where the station sends nothing and no dropped frame is left, no entry is in flight. -/
theorem dropOver_waits (h : s.isFlying = false) : ∀ e ∈ s.dropOver.queue, e.inFlight = false := by
  have hfly : ∀ e ∈ s.queue, ¬(e.inFlight && !e.dropped) = true := by
    rw [State.isFlying, State.flying, Option.isSome_eq_false_iff, Option.isNone_iff_eq_none] at h
    exact List.find?_eq_none.mp h
  have hout : ∀ e ∈ s.queue, e.dropped = false → e.inFlight = false := fun e he hd => by
    have hno := hfly e he
    rw [hd] at hno
    simpa using hno
  obtain ⟨hd, e⟩ | ⟨-, e⟩ := s.dropOver_cases <;> rw [e] <;> intro x hx
  · exact hout x hx (by simpa using List.any_eq_false.mp hd x hx)
  · obtain ⟨hmem, hdrop⟩ := List.mem_filter.mp hx
    exact hout x hmem ((Bool.not_eq_true' _).mp hdrop)

end Sys2Proof.Machine
end
section
/-! PROOF. Every step keeps a steady property; the laws of the queue, of the entry in flight and the bounds are two
(EveryStepKeepsTheBounds). -/

namespace Sys2Proof.Machine

set_option Elab.async false

section
variable {P : State → Prop} (hP : Steady P) {s t : State}
include hP

/-! ## The commands -/

theorem Steady.land (v : Fin 8) (r : Read) (frames : List SampleFrame) (h : P s) : P (s.land v r frames) :=
  hP.testPrimed v (hP.setVoice v _ h)

theorem Steady.execReadEnd {bytes : List Byte} (h : P s) (he : execReadEnd bytes s = .next t) : P t := by
  unfold Machine.execReadEnd at he
  split at he
  · cases he
    exact h
  · split at he
    · cases he
      exact h
    · split at he
      · cases he
        exact hP.arbitrate (hP.link none h)
      · split at he
        · cases he
        · cases he
          refine hP.arbitrate (hP.link _ ?_)
          split
          · exact hP.land _ _ _ h
          · exact h

theorem Steady.execConfigReadEnd {bytes : List Byte} (h : P s) (he : execConfigReadEnd bytes s = .next t) : P t := by
  unfold Machine.execConfigReadEnd at he
  split at he
  · cases he
  · cases he
    split
    next ha =>
      rw [State.awaitsConfig, Bool.and_eq_true, Bool.and_eq_true] at ha
      exact hP.testConfig h (of_decide_eq_true ha.1.1) bytes
    · exact h

theorem Steady.execDirectoryReadEnd {bytes : List Byte} (h : P s) (he : execDirectoryReadEnd bytes s = .next t) : P t := by
  unfold Machine.execDirectoryReadEnd at he
  split at he
  · cases he
  · cases he
    split
    · exact hP.leaveLoading (hP.congr (t := s.fillDirectory bytes) h)
    · exact h

theorem Steady.execBusIdle (h : P s) (he : execBusIdle s = .next t) : P t := by
  cases he
  split
  · exact h
  next hg =>
    rw [Bool.or_eq_true, not_or, Bool.not_eq_true s.isFlying] at hg
    exact hP.offerJoin (hP.congr (hP.listen .idle (hP.dropOver h) (.inr (dropOver_waits hg.2))))

theorem Steady.execFrameBegin (h : P s) (he : execFrameBegin s = .next t) : P t := by
  cases he
  split
  next hidle =>
    have hw : ∀ e ∈ s.queue, e.inFlight = false := fun e hm => (Bool.not_eq_true' _).mp (List.all_eq_true.mp hidle.2 e hm)
    split
    · exact hP.begins _ h hw
    · exact h
  · exact h

theorem Steady.execArbitrationLost (h : P s) (he : execArbitrationLost s = .next t) : P t := by
  cases he
  split
  next e _ => exact hP.heldOff _ (hP.congr (hP.listen .receiving (hP.queueReturned e.attempts h) (.inr fun _ => mem_returned)))
  · exact h

theorem Steady.execBitError (h : P s) (he : execBitError s = .next t) : P t := by
  cases he
  split
  · split
    · exact hP.dropFlight _ (hP.driveError h)
    · exact hP.returnFlight _ _ (hP.driveError h)
  · exact h

theorem Steady.execRxDiscard {bits : List Bool} (h : P s) (he : execRxDiscard bits s = .next t) : P t := by
  unfold Machine.execRxDiscard at he
  split at he
  · cases he
  · cases he
    split
    · split
      · exact hP.congr (hP.seek h)
      · exact h
    · exact h
    · exact h

theorem Steady.execRxStartBit (h : P s) (he : execRxStartBit s = .next t) : P t := by
  cases he
  split
  next hidle => exact hP.congr (hP.listen .receiving h (.inl (by rw [hidle.1]; exact nofun)))
  · exact h

theorem Steady.receiveRaw {kind source : BitVec 5} {payload : List Byte} (h : P s)
    (he : receiveRaw kind source payload s = .next t) : P t := by
  unfold Machine.receiveRaw at he
  split at he
  · cases he
    exact hP.receiveFrame _ _ h
  · cases he

omit hP in
theorem guarded_keeps (b : Bool) (h : P s) (ht : P t) : P (if b then s else t) := by
  split
  · exact h
  · exact ht
/-- Every command keeps a steady property. -/
theorem Steady.exec (c : Instr) (h : P s) (he : exec c s = .next t) : P t := by
  cases c
  case reset => cases he; exact hP.congr hP.reset
  case configReadEnd => exact hP.execConfigReadEnd h he
  case directoryReadEnd => exact hP.execDirectoryReadEnd h he
  case sampleInstant => cases he; exact guarded_keeps _ h (hP.sampleInstant h)
  case endOfData v => cases he; exact hP.endData v h
  case fadeStep v =>
    cases he
    dsimp only
    split
    · exact hP.setVoice v _ h
    · exact h
  case duckStep v =>
    cases he
    dsimp only
    split
    · exact hP.setVoice v _ h
    · exact h
  case blockBoundary levels => cases he; exact guarded_keeps _ (hP.blockBoundary levels h) h
  case playPress n | sendPress n => cases he; exact guarded_keeps _ h (hP.pressEvent n h)
  case playRelease n | sendRelease n => cases he; exact guarded_keeps _ h (hP.releaseEvent n h)
  case requestExpiry which =>
    cases he
    cases which with
    | line n => exact hP.expireLine _ n h
    | remote i => exact hP.expireRemote _ i.val h
  case deadAir o => cases he; exact hP.latchDeadAir o h
  case overloadTrip o => cases he; exact hP.tripPair o h
  case recoveryWaitEnd o => cases he; exact hP.recoverPair o h
  case attemptsForgiven o => cases he; exact hP.forgivePair o h
  case joinWaitEnd => cases he; exact hP.endJoinWait h
  case holdUnitBoundary => cases he; exact guarded_keeps _ (hP.holdUnitBoundary h) h
  case penaltyEnd n => cases he; exact hP.endPenalty n h
  case duckEntryExpiry => cases he; exact hP.duckList _ h (DuckStep.of_sublist List.filter_sublist)
  case readEnd => exact hP.execReadEnd h he
  case busIdle => exact hP.execBusIdle h he
  case frameBegin => exact hP.execFrameBegin h he
  case arbitrationLost => exact hP.execArbitrationLost h he
  case bitError => exact hP.execBitError h he
  case rxDiscard => exact hP.execRxDiscard h he
  case rxUnappliedFrame | rxOwnNumberFrame => exact hP.receiveRaw h he
  case rxStartBit => exact hP.execRxStartBit h he
  case ownClaimComplete | ownHeldComplete | ownStartComplete | ownEndComplete | ownHoldComplete | ownStatusComplete =>
    cases he; exact hP.completeOwn _ _ h
  case release | stop | allStop | fire | arm | disarm => cases he; exact hP.completeFrame _ _ h
  case claim | held | start | endFrame | hold | ask | status | rxFreshStatusOwnNumber => cases he; exact hP.receiveFrame _ _ h

/-- Every step keeps a steady property. -/
theorem Steady.step (h : P s) (he : step s = .next t) : P t := by
  unfold Machine.step at he
  split at he
  · cases he
    exact h
  next c rest _ => exact hP.exec (s := { s with pending := rest }) c (hP.congr h) he

end

/-! ## The laws of the queue when an entry is begun or made anew (R132, R137, R140, R144) -/

variable {s : State}

theorem formed_kind (s : State) (f : Frame) : (s.formed f).kind = f.kind := by
  unfold State.formed
  split
  next h => exact ((isStatus_iff_kind f).mp h).symm
  · rfl

/-- The frames that bear a tag are no STATUS, so that one that is begun keeps its fields (R155). -/
theorem formed_tags (s : State) (f : Frame) (tag : Nat) :
    (s.formed f).isStartOf tag = f.isStartOf tag ∧ (s.formed f).isEndOf tag = f.isEndOf tag ∧
      (s.formed f).isHoldOf tag = f.isHoldOf tag := by
  unfold State.formed
  split
  next h => cases f <;> first | exact ⟨rfl, rfl, rfl⟩ | cases h
  · exact ⟨rfl, rfl, rfl⟩

/-- An entry that takes the place of one of its kind and tags, with no other in flight, keeps the laws. -/
theorem QueueLaw.replace {a b : List Entry} {e x : Entry} (h : QueueLaw (a ++ e :: b)) (hk : x.frame.kind = e.frame.kind)
    (ht : ∀ tag, x.frame.isStartOf tag = e.frame.isStartOf tag ∧ x.frame.isEndOf tag = e.frame.isEndOf tag ∧
      x.frame.isHoldOf tag = e.frame.isHoldOf tag)
    (hw : ∀ y ∈ a ++ e :: b, y.inFlight = false) : QueueLaw (a ++ x :: b) where
  size := by
    have hs := h.size
    rw [List.length_append, List.length_cons] at hs ⊢
    exact hs
  flight := by
    have hzero : ∀ l : List Entry, (∀ y ∈ l, y ∈ a ++ e :: b) → l.countP (fun y => y.inFlight) = 0 := fun l hl => by
      rw [List.countP_eq_zero]
      intro y hy
      rw [hw y (hl y hy)]
      exact Bool.false_ne_true
    unfold flights
    rw [List.countP_append, List.countP_cons, hzero a (fun y => List.mem_append_left _),
      hzero b fun y hy => List.mem_append_right _ (List.mem_cons_of_mem _ hy)]
    split <;> omega
  order := by
    have ho := h.order
    rw [List.pairwise_append, List.pairwise_cons] at ho ⊢
    obtain ⟨ha, ⟨heb, hb⟩, hab⟩ := ho
    refine ⟨ha, ⟨fun y hy => hk.trans_le (heb y hy), hb⟩, fun y hy z hz => ?_⟩
    rcases List.mem_cons.mp hz with rfl | hz
    · exact (hab y hy e List.mem_cons_self).trans_eq hk.symm
    · exact hab y hy z (List.mem_cons_of_mem _ hz)
  status := by
    have hs := h.status
    unfold statuses at hs ⊢
    rw [List.countP_append, List.countP_cons] at hs ⊢
    rwa [isStatus_of_kind hk]
  startEnd := fun tag ⟨y, hy, hys⟩ z hz => by
    have hmem : ∀ {y}, y ∈ a ++ x :: b → ∃ w ∈ a ++ e :: b, y.frame.isStartOf tag.toNat = w.frame.isStartOf tag.toNat ∧
        y.frame.isEndOf tag.toNat = w.frame.isEndOf tag.toNat := fun {y} hy => by
      rw [List.mem_append, List.mem_cons] at hy
      rcases hy with hy | rfl | hy
      · exact ⟨y, List.mem_append_left _ hy, rfl, rfl⟩
      · exact ⟨e, List.mem_append_right _ List.mem_cons_self, (ht _).1, (ht _).2.1⟩
      · exact ⟨y, List.mem_append_right _ (List.mem_cons_of_mem _ hy), rfl, rfl⟩
    obtain ⟨u, hu, hus, -⟩ := hmem hy
    obtain ⟨w, hwm, -, hwe⟩ := hmem hz
    rw [hwe]
    exact h.startEnd tag ⟨u, hu, hus ▸ hys⟩ w hwm
  hold := fun tag => by
    have hh := h.hold tag
    unfold holds at hh ⊢
    rw [List.countP_append, List.countP_cons] at hh ⊢
    rwa [(ht _).2.2]

theorem begin_law (i : Nat) (h : QueueLaw s.queue) (hw : ∀ e ∈ s.queue, e.inFlight = false) : QueueLaw (s.begin i).queue := by
  unfold State.begin
  split
  next e he =>
    obtain ⟨hi, rfl⟩ := List.getElem?_eq_some_iff.mp he
    have hsplit : s.queue = s.queue.take i ++ s.queue[i] :: s.queue.drop (i + 1) := by
      rw [List.getElem_cons_drop, List.take_append_drop]
    rw [hsplit] at h hw
    dsimp only
    rw [List.set_eq_take_append_cons_drop, if_pos hi]
    exact h.replace (formed_kind s _) (formed_tags s _) hw
  · exact h

/-- Entries that keep their frames, and of which no other comes into flight, keep the laws. -/
theorem QueueLaw.remake {q : List Entry} (h : QueueLaw q) (f : Entry → Entry) (hf : ∀ e, (f e).frame = e.frame)
    (hi : ∀ e, (f e).inFlight = true → e.inFlight = true) : QueueLaw (q.map f) := by
  refine h.map f (fun e => congrArg Frame.kind (hf e)) ?_ (fun e => by rw [hf]) fun e tag => by
    rw [hf]
    exact ⟨rfl, rfl, rfl⟩
  unfold flights
  rw [List.countP_map]
  exact Nat.le_trans (List.countP_mono_left fun e _ => hi e) h.flight

/-! ## The bounds (R33, R103, R118, R125, R130, R144) -/

/-- A change that keeps the laws of the queue, the size of the remote queue, the duck list and both pairs keeps the bounds. -/
theorem Lawful.of_parts {t : State} (h : Lawful s) (queue : QueueLaw t.queue) (remote : t.remote.length ≤ Config.remoteSize)
    (mode : t.mode = .loading → s.mode = .loading := by exact id) (cfg : t.cfg = s.cfg := by rfl)
    (ducks : t.ducks = s.ducks := by rfl) (pgm : t.pgm = s.pgm := by rfl) (floor : t.floor = s.floor := by rfl) : Lawful t where
  queue := queue
  remote := remote
  ducks := ducks ▸ h.ducks
  foreign := by rw [ducks, cfg]; exact h.foreign
  pgm := by rw [cfg, pgm]; exact h.pgm
  floor := by rw [cfg, floor]; exact h.floor
  loading := by rw [pgm, floor, ducks]; exact h.loading ∘ mode

/-- In LOADING both pairs stand still and the duck list is empty (R109, R118, R130). -/
theorem Lawful.still (h : Lawful s) (hm : s.mode = .loading) : s.pgm.Still ∧ s.floor.Still ∧ s.ducks = [] := by
  obtain ⟨pprot, prun, fprot, frun, hd, pport, pnext, fport, fnext⟩ := h.loading hm
  exact ⟨⟨pprot, prun, pport, pnext⟩, ⟨fprot, frun, fport, fnext⟩, hd⟩

theorem loading_of_still {t : State} (p : t.pgm.Still) (f : t.floor.Still) (d : t.ducks = []) :
    t.pgm.prot = .normal ∧ t.pgm.run = 0 ∧ t.floor.prot = .normal ∧ t.floor.run = 0 ∧ t.ducks = [] ∧
      t.pgm.port = (0, 0) ∧ t.pgm.portNext = (0, 0) ∧ t.floor.port = (0, 0) ∧ t.floor.portNext = (0, 0) :=
  ⟨p.prot, p.run, f.prot, f.run, d, p.port, p.portNext, f.port, f.portNext⟩

/-- A NORMAL pair is bound by its attempts alone, whatever the recovery (R123). -/
theorem PairLaw.of_normal {c d : StationConfig} {p : Pair} (h : PairLaw c p) (hp : p.prot = .normal) : PairLaw d p :=
  ⟨h.attempts, fun ht => by rw [hp] at ht; cases ht⟩

/-- The bounds are kept by every update that a step makes. -/
theorem lawful_steady : Steady Lawful where
  toStable := lawful_stable
  reset := lawful_reset
  same := fun {s t} h mode cfg remote ducks pgm floor queue _ =>
    h.of_parts (queue ▸ h.queue) (remote ▸ h.remote) (fun hm => mode ▸ hm) cfg ducks pgm floor
  config := fun {s} c h hm => by
    obtain ⟨hp, hf, hd⟩ := h.still hm
    refine ⟨h.queue, h.remote, h.ducks, fun e he => ?_, h.pgm.of_normal hp.prot, h.floor.of_normal hf.prot, h.loading⟩
    change e ∈ s.ducks at he
    rw [hd] at he
    cases he
  leave := fun m h hm => h.of_parts h.queue h.remote fun hl => absurd hl hm
  seek := fun h => h.of_parts h.queue h.remote
  listen := fun r h _ => h.of_parts h.queue h.remote
  filter := fun p h => h.of_parts (h.queue.sublist List.filter_sublist) h.remote
  remake := fun f hf hi h => h.of_parts (h.queue.remake f hf hi) h.remote
  send := fun {s} f h hm => by
    have hk := offer_kept s f
    refine h.of_parts (offerKey_law f _ h.queue hm) ?_ (fun hl => hk.mode ▸ hl) hk.cfg hk.ducks hk.pgm hk.floor
    obtain ⟨q, v, g, e⟩ := offerKey_eq (s := s) f s.cfg.number
    unfold State.offer
    rw [e]
    exact h.remote
  begins := fun {s} i h hw => by
    have hq := begin_law i h.queue hw
    unfold State.begin at hq ⊢
    split at hq
    · exact h.of_parts hq h.remote
    · exact h
  remotes := fun r h hr => h.of_parts h.queue (hr.elim (fun hle => Nat.le_trans hle h.remote) id)
  pair := fun {s} o p h hp => by
    cases o
    · refine ⟨h.queue, h.remote, h.ducks, h.foreign, hp.law h.pgm, h.floor, fun hm => ?_⟩
      obtain ⟨hpgm, hfloor, hd⟩ := h.still hm
      exact loading_of_still (t := s.setPair .pgm p) (hp.still hm hpgm) hfloor hd
    · refine ⟨h.queue, h.remote, h.ducks, h.foreign, h.pgm, hp.law h.floor, fun hm => ?_⟩
      obtain ⟨hpgm, hfloor, hd⟩ := h.still hm
      exact loading_of_still (t := s.setPair .floor p) hpgm (hp.still hm hfloor) hd
  duckList := fun {s} l h hl => by
    refine ⟨h.queue, h.remote, hl.law h.ducks, fun e he => ?_, h.pgm, h.floor, fun hm => ?_⟩
    · rcases hl.foreign e he with ⟨x, hx, hs⟩ | hs
      · exact hs ▸ h.foreign x hx
      · exact hs
    · obtain ⟨hpgm, hfloor, hd⟩ := h.still hm
      exact loading_of_still (t := { s with ducks := l }) hpgm hfloor (hl.loading hm hd)

/-- That the receiver waits for idle while an entry is in flight is kept by every update that a step makes (R131, R132, R139). -/
theorem wire_steady : Steady WireLaw where
  toStable := wire_stable
  reset := fun _ => nofun
  same := fun {s t} h _ _ _ _ _ _ queue rx => by
    unfold WireLaw
    rw [queue, rx]
    exact h
  config := fun _ h _ => h
  leave := fun _ h _ => h
  seek := fun _ hr => absurd rfl hr
  listen := fun _ h hw _ => hw.elim h id
  filter := fun _ h hr e he => h hr e (List.mem_filter.mp he).1
  remake := fun f _ hi h hr e he => by
    obtain ⟨x, hx, rfl⟩ := List.mem_map.mp he
    exact Bool.eq_false_iff.mpr fun hf => Bool.false_ne_true ((h hr x hx).symm.trans (hi x hf))
  send := fun {s} f h _ hr => offerKey_waiting f _ (h ((offer_kept s f).rx ▸ hr))
  begins := fun {s} i h _ => by
    unfold State.begin
    split
    · exact fun hr => absurd rfl hr
    · exact h
  remotes := fun _ h _ => h
  pair := fun o _ h _ => by cases o <;> exact h
  duckList := fun _ h _ => h

/-- Settles O5: the bounds and the law of the wire are steady, and every step keeps a steady property (`Steady.step`). -/
theorem everyStepKeepsTheBounds : Obligations.EveryStepKeepsTheBounds :=
  fun _ _ he => ⟨fun h => lawful_steady.step h he, fun h => wire_steady.step h he⟩

end Sys2Proof.Machine
end
section
/-! PROOF. The counters of TRG, LVL and OUT end at their limits, and the tally lamps (CountersAtTheirLimitsEnd). -/

namespace Sys2Proof.Machine

set_option Elab.async false

variable {s : State}

/-! ## Output pairs (R122, R127) -/

theorem Pair.airDead_iff (p : Pair) (c : StationConfig) : p.airDead c = true ↔ c.deadAirTime * 10 ≤ p.deadAir := decide_eq_true_iff

theorem Pair.forgiven_iff (p : Pair) : p.forgiven = true ↔ p.prot = .normal ∧ 5000 ≤ p.normalTime := by
  rw [Pair.forgiven, Bool.and_eq_true, decide_eq_true_iff, decide_eq_true_iff]
  exact Iff.rfl

theorem State.setPair_self (o : OutPair) : s.setPair o (s.pair o) = s := by cases o <;> rfl

/-! ## The lamps (R46, R47) -/

theorem lampLit_of_mode {n : Fin 8} (hm : s.mode ≠ .loading) :
    lampLit s n = if (s.line n).penalty.isSome then decide (s.tmb.lamp < 125) else tallyLit s n (s.lineConfig n).tally :=
  if_neg fun h => hm (of_decide_eq_true h)

theorem tallyLit_voice_iff (n : Fin 8) :
    tallyLit s n .voice = true ↔ ∃ v, (s.voice v).state ≠ .free ∧ (s.voice v).source = .line n := by
  simp [tallyLit, mem_slots]

theorem tallyLit_holder_iff (n : Fin 8) :
    tallyLit s n .holder = true ↔ ∃ i, (s.groups.get i).holder = some s.cfg.number ∧ (s.groups.get i).holdingLine = some n := by
  simp [tallyLit, mem_groupPlaces]

theorem groupPlace_eq_some {g : Nat} {i : Fin 15} : groupPlace g = some i ↔ i.val + 1 = g := by
  unfold groupPlace
  split
  next h =>
    rw [Option.some.injEq, Fin.ext_iff]
    dsimp only
    omega
  next h => exact ⟨nofun, fun e => absurd ⟨by omega, by omega⟩ h⟩

theorem groupPlace_eq_none {g : Nat} : groupPlace g = none ↔ ∀ i : Fin 15, i.val + 1 ≠ g := by
  rw [Option.eq_none_iff_forall_ne_some]
  exact forall_congr' fun i => not_congr groupPlace_eq_some

/-- Group g has a holder in the view (R72). -/
theorem State.holder_isSome_iff (g : Nat) :
    (s.holder g).isSome = true ↔ ∃ i : Fin 15, i.val + 1 = g ∧ (s.groups.get i).holder ≠ none := by
  unfold State.holder
  split
  next i hi =>
    rw [groupPlace_eq_some] at hi
    rw [Option.isSome_iff_ne_none]
    refine ⟨fun h => ⟨i, hi, h⟩, fun ⟨j, hj, h⟩ => ?_⟩
    obtain rfl : j = i := Fin.ext (by omega)
    exact h
  next hn => exact ⟨nofun, fun ⟨j, hj, _⟩ => absurd hj (groupPlace_eq_none.mp hn j)⟩

/-- Settles O37: each command tests one limit, and each tally mode one condition. -/
theorem countersAtTheirLimitsEnd : Obligations.CountersAtTheirLimitsEnd := by
  intro s
  refine ⟨fun o => ⟨fun h => ?_, fun h => ?_, fun hn ht => ?_, fun h => ?_⟩, fun n h => ?_, fun n h => ?_, fun source tag => ?_,
    fun n => ⟨fun hm => ?_, fun hm => ?_⟩⟩
  · exact congrArg Host.Outcome.next (if_pos ((Pair.airDead_iff _ _).mpr h))
  · exact congrArg Host.Outcome.next (if_neg fun ha => Nat.not_le_of_lt h ((Pair.airDead_iff _ _).mp ha))
  · have hp : (s.pair o).forgive = { s.pair o with attempts := 0 } := if_pos ((Pair.forgiven_iff _).mpr ⟨hn, ht⟩)
    exact congrArg (fun p => Host.Outcome.next (s.setPair o p)) hp
  · have hp : (s.pair o).forgive = s.pair o := by
      refine if_neg fun hf => ?_
      obtain ⟨hn, ht⟩ := (Pair.forgiven_iff _).mp hf
      exact h.elim (absurd hn) fun hlt => Nat.not_le_of_lt hlt ht
    exact congrArg Host.Outcome.next ((congrArg (s.setPair o) hp).trans (State.setPair_self o))
  · exact congrArg Host.Outcome.next (if_pos h)
  · exact congrArg Host.Outcome.next (if_neg h)
  · refine ⟨_, rfl, List.filter_sublist, fun e he => ?_⟩
    rw [List.mem_filter, Bool.not_eq_true', Bool.eq_false_iff, ne_eq, Bool.and_eq_true, DuckEntry.hasKey_iff, decide_eq_true_iff,
      and_assoc]
    exact and_iff_right he
  · exact if_pos (decide_eq_true hm)
  · rw [lampLit_of_mode hm]
    refine ⟨fun hp => ?_, fun hp => ⟨fun ht => ?_, fun ht => ?_, fun g ht => ?_, fun ht => ?_⟩⟩
    · rw [if_pos (Option.isSome_iff_ne_none.mpr hp)]
      exact decide_eq_true_iff
    all_goals
      rw [hp, ht]
      dsimp only [Option.isSome_none]
      rw [if_neg Bool.false_ne_true]
    · exact tallyLit_voice_iff n
    · exact tallyLit_holder_iff n
    · exact s.holder_isSome_iff g
    · rfl

end Sys2Proof.Machine
end
section
/-! PROOF. A press that is ignored or follows the early policy (PressIsIgnoredOrEarly), and the frames of SEND lines
(SendLinesQueueTheirFrames). -/

namespace Sys2Proof.Machine

set_option Elab.async false

variable {s : State} {n : Fin 8}

/-! ## Which event a command is (R27, R31) -/

theorem execPlayPress_of_play {c : Byte} (hm : s.mode ≠ .loading) (ha : (s.lineConfig n).action = .play c) :
    exec (.playPress n) s = .next (s.pressPlay n c.toNat) := by
  have hplay : (s.lineConfig n).action.playCue = some c.toNat := by rw [ha]; rfl
  have hguard : ¬(s.isLoading || !s.isPlayLine n) = true := by simp [State.isLoading, State.isPlayLine, hm, hplay]
  have hevent : s.pressEvent n = s.pressPlay n c.toNat := by
    unfold State.pressEvent
    rw [hplay]
  exact congrArg Host.Outcome.next ((if_neg hguard).trans hevent)

theorem execSendPress_of_send (hm : s.mode ≠ .loading) (ha : (s.lineConfig n).action.playCue = none) :
    exec (.sendPress n) s = .next ((s.setLine n ((s.line n).acting true)).sendFrame (s.lineConfig n).action.pressFrame) := by
  have hguard : ¬(s.isLoading || s.isPlayLine n) = true := by simp [State.isLoading, State.isPlayLine, hm, ha]
  have hevent : s.pressEvent n = (s.setLine n ((s.line n).acting true)).sendFrame (s.lineConfig n).action.pressFrame := by
    unfold State.pressEvent
    rw [ha]
  exact congrArg Host.Outcome.next ((if_neg hguard).trans hevent)

theorem execSendRelease_of_send (hm : s.mode ≠ .loading) (hg : (s.lineConfig n).gate = true)
    (ha : (s.lineConfig n).action.playCue = none) :
    exec (.sendRelease n) s = .next ((s.setLine n (s.line n).released).sendFrame (s.lineConfig n).action.releaseFrame) := by
  have hguard : ¬(s.isLoading || s.isPlayLine n || !(s.lineConfig n).gate) = true := by
    simp [State.isLoading, State.isPlayLine, hm, ha, hg]
  have hevent : s.releaseEvent n = (s.setLine n (s.line n).released).sendFrame (s.lineConfig n).action.releaseFrame := by
    unfold State.releaseEvent
    rw [ha]
    rfl
  exact congrArg Host.Outcome.next ((if_neg hguard).trans hevent)

/-! ## A press that makes no request, or one that waits (R27 to R29) -/

theorem State.line_pressed (s : State) (n : Fin 8) : (s.setLine n (s.line n).pressed).line n = (s.line n).pressed :=
  s.line_setLine_self n _

theorem State.pressPlay_ignored {c : Nat} (h : (s.line n).penalty ≠ none ∨ (s.line n).request ≠ none) :
    s.pressPlay n c = s.setLine n (s.line n).pressed := by
  have hpen : (s.line n).pressed.penalty = (s.line n).penalty := rfl
  have hreq : (s.line n).pressed.request = (s.line n).request := rfl
  rw [State.pressPlay_eq, State.line_pressed, hpen, hreq]
  rcases h with h | h
  · exact if_pos (Option.isSome_iff_ne_none.mpr h)
  · split
    · rfl
    · exact if_pos (Option.isSome_iff_ne_none.mpr h)

/-- A press for a disarmed group follows the line's early policy (R28). -/
theorem State.pressPlay_early {c : Nat} (hp : (s.line n).penalty = none) (hr : (s.line n).request = none)
    (ha : s.armed (s.groupOf c) = false) : s.pressPlay n c = (s.setLine n (s.line n).pressed).earlyPress n c := by
  have hpen : (s.line n).pressed.penalty = none := hp
  have hreq : (s.line n).pressed.request = none := hr
  have harm : (s.setLine n (s.line n).pressed).armed ((s.setLine n (s.line n).pressed).groupOf c) = false := ha
  rw [State.pressPlay_eq, State.line_pressed, hpen, hreq, harm]
  rfl

/-- A latched request whose group is disarmed stays pending (R38). -/
theorem State.decideRequest_latched {c : Nat} (src : Source) (ha : s.armed (s.groupOf c) = false) :
    s.decideRequest c true src = (s, .stays) := by
  unfold State.decideRequest
  unfold State.groupOf at ha
  split
  next hq =>
    rw [hq] at ha
    cases ha
  next q hq =>
    rw [hq] at ha
    dsimp only at ha
    rw [ha]
    rfl

/-- The pass that an event runs serves the one line that has a request. -/
theorem AtMostLine.runPass (h : AtMostLine s n) (hp : s.passesDue = 0) (ht : AtMostLine (s.serveLine n) n)
    (htp : (s.serveLine n).passesDue = 0) : s.runPass = s.serveLine n := by
  have hpass := h.servePass ht
  rw [State.runPass_eq hp (by rw [hpass]; exact htp), hpass]

theorem NoRequests.atMostLine (h : NoRequests s) (n : Fin 8) (l : Line) : AtMostLine (s.setLine n l) n :=
  ⟨fun m hm => by rw [State.line_setLine_ne _ _ hm.symm]; exact h.lines m, h.remote⟩

/-- A latched press waits for its group to be armed (R28). -/
theorem NoRequests.latched_waits (h : NoRequests s) {c : Nat} (ha : s.armed (s.groupOf c) = false) :
    (s.setLine n (s.line n).pressed).addRequest n c true =
      s.setLine n { (s.line n).pressed with request := some { cue := c, latched := true, age := 0 } } := by
  have hone := h.atMostLine n { (s.line n).pressed with request := some { cue := c, latched := true, age := 0 } }
  unfold State.addRequest
  rw [State.line_pressed, State.setLine_setLine]
  generalize hu : s.setLine n { (s.line n).pressed with request := some { cue := c, latched := true, age := 0 } } = u at hone
  have hserve : u.serveLine n = u := by
    have hline : u.line n = { (s.line n).pressed with request := some { cue := c, latched := true, age := 0 } } := by
      rw [← hu, State.line_setLine_self]
    have hd := State.decideRequest_latched (s := u) (c := c) (.line n) (by rw [← hu]; exact ha)
    unfold State.serveLine
    rw [hline]
    dsimp only
    rw [hd]
  have hp : u.passesDue = 0 := by
    rw [← hu]
    exact h.passes
  rw [hone.runPass hp (by rw [hserve]; exact hone) (by rw [hserve]; exact hp), hserve]

/-- Settles O27: the tests of R27 come first, then the early policy, whose latched request its pass leaves waiting. -/
theorem pressIsIgnoredOrEarly : Obligations.PressIsIgnoredOrEarly := by
  intro s n c hm hact base
  have hexec := execPlayPress_of_play hm hact
  refine ⟨fun h => ?_, fun hp hr ha => ?_⟩
  · rw [hexec, State.pressPlay_ignored h]
  · rw [hexec, State.pressPlay_early hp hr ha]
    have hcfg : (base.lineConfig n).early = (s.lineConfig n).early := rfl
    unfold State.earlyPress
    rw [hcfg]
    refine ⟨fun he => ?_, fun he => ⟨fun ht => ?_, fun ht => ?_⟩, fun he hn => ?_⟩ <;> rw [he] <;> dsimp only
    · exact congrArg Host.Outcome.next (if_pos ht)
    · refine congrArg Host.Outcome.next ((if_neg ht).trans ?_)
      rw [State.line_pressed]
      rfl
    · rw [hn.latched_waits ha, State.setLine_setLine]

/-! ## SEND lines (R31) -/

/-- Out of RUN a SEND line queues nothing; in RUN it offers its frame, which is placed where there is room. -/
theorem State.sendFrame_spec {f : Frame} (hplace : s.offer f = (s.place f s.cfg.number).1) (hroom : s.hasRoom) :
    (s.mode = .run → ∃ q, Placed s.queue q (newEntry f s.cfg.number) ∧ s.sendFrame (some f) = { s with queue := q }) ∧
      (s.mode ≠ .run → s.sendFrame (some f) = s) := by
  unfold State.sendFrame
  refine ⟨fun hrun => ⟨placeEntry (newEntry f s.cfg.number) s.queue, placeEntry_placed _ _, ?_⟩, fun hrun => ?_⟩ <;> dsimp only
  · refine (if_pos (decide_eq_true hrun)).trans ?_
    rw [hplace, place_of_room _ _ hroom]
  · exact if_neg fun h => hrun (of_decide_eq_true h)

/-- The frame of a SEND line's press is offered as it is placed: no frame of its kind is cancelled or merged (R145). -/
theorem LineAction.offer_pressFrame {a : LineAction} {f : Frame} (h : a.pressFrame = some f) (s : State) :
    s.offer f = (s.place f s.cfg.number).1 := by
  cases a <;> cases h <;> rfl

/-- Settles O34: a SEND line's event is acted on as its action says (`execSendPress_of_send`, `execSendRelease_of_send`). -/
theorem sendLinesQueueTheirFrames : Obligations.SendLinesQueueTheirFrames := by
  intro s n hm hroom a down up
  have hpress : ∀ f, a.pressFrame = some f →
      (s.mode = .run → ∃ q, Placed s.queue q (newEntry f s.cfg.number) ∧ exec (.sendPress n) s = .next { down with queue := q }) ∧
      (s.mode ≠ .run → exec (.sendPress n) s = .next down) := fun f hf => by
    have hno : a.playCue = none := by cases ha : a <;> rw [ha] at hf <;> first | rfl | cases hf
    obtain ⟨hin, hout⟩ := State.sendFrame_spec (s := down) (LineAction.offer_pressFrame hf _) hroom
    have hexec : exec (.sendPress n) s = .next (down.sendFrame (some f)) := hf ▸ execSendPress_of_send hm hno
    rw [hexec]
    refine ⟨fun hrun => ?_, fun hrun => congrArg _ (hout hrun)⟩
    obtain ⟨q, hq, he⟩ := hin hrun
    exact ⟨q, hq, congrArg _ he⟩
  refine ⟨fun f hf => hpress f ?_, fun hg => ⟨fun t c k ha => ?_, fun hplay hfire => ?_⟩⟩
  · rcases hf with ⟨t, c, k, ha, rfl⟩ | ⟨t, c, k, ha, rfl⟩ | ⟨g, ha, rfl⟩ | ⟨g, ha, rfl⟩ | ⟨g, ha, rfl⟩ <;> rw [ha] <;> rfl
  · have ha' : (s.lineConfig n).action = .sendFire t c k := ha
    have hexec := execSendRelease_of_send hm hg (by rw [ha']; rfl)
    rw [ha'] at hexec
    obtain ⟨hin, hout⟩ := State.sendFrame_spec (s := up) (f := .stop t c k) rfl hroom
    refine ⟨fun hrun => ?_, fun hrun => hexec.trans (congrArg _ (hout hrun))⟩
    obtain ⟨q, hq, he⟩ := hin hrun
    exact ⟨q, hq, hexec.trans (congrArg _ he)⟩
  · have hno : a.playCue = none ∧ a.releaseFrame = none := by
      cases ha : a
      case play c => exact absurd ha (hplay c)
      case sendFire t c k => exact absurd ha (hfire t c k)
      all_goals exact ⟨rfl, rfl⟩
    have hexec := execSendRelease_of_send hm hg hno.1
    have hframe : (s.lineConfig n).action.releaseFrame = none := hno.2
    rw [hframe] at hexec
    exact hexec

end Sys2Proof.Machine
end
section
/-! PROOF. What serving, releasing and freeing do to requests, lines and flags: no request is made, no line comes into PENALTY or to owe a
release, and no flag is cleared (R29, R30, R36, R154). `Stable` lets the lines and the flags change at will, so that it cannot say so. -/

namespace Sys2Proof.Machine

set_option Elab.async false

/-- From s to t requests have only left their places, owed-release marks have only been cleared and flags only been latched (R30, R36,
R154). -/
structure Eases (s t : State) : Prop where
  remote : t.remote <:+ s.remote
  request : ∀ m, (t.line m).request = (s.line m).request ∨ (t.line m).request = none
  penalty : ∀ m, (t.line m).penalty = (s.line m).penalty
  owed : ∀ m, (s.line m).owedRelease = false → (t.line m).owedRelease = false
  flag : ∀ f, s.flag f = true → t.flag f = true
  newMark : ∀ f, s.newMark f = true → t.newMark f = true

variable {s t u : State}

/-- A change of neither a request, a line nor a flag. -/
theorem Eases.of_same (remote : t.remote = s.remote := by rfl) (lines : t.lines = s.lines := by rfl)
    (flags : t.flags = s.flags := by rfl) : Eases s t where
  remote := remote ▸ List.suffix_refl _
  request := fun m => .inl (by unfold State.line; rw [lines])
  penalty := fun m => by unfold State.line; rw [lines]
  owed := fun m h => by unfold State.line at h ⊢; rw [lines]; exact h
  flag := fun f h => by unfold State.flag at h ⊢; rw [flags]; exact h
  newMark := fun f h => by unfold State.newMark at h ⊢; rw [flags]; exact h

theorem Eases.refl (s : State) : Eases s s := Eases.of_same

theorem Eases.trans (h : Eases s t) (k : Eases t u) : Eases s u where
  remote := k.remote.trans h.remote
  request := fun m => (k.request m).elim (fun e => e ▸ h.request m) .inr
  penalty := fun m => (k.penalty m).trans (h.penalty m)
  owed := fun m => k.owed m ∘ h.owed m
  flag := fun f => k.flag f ∘ h.flag f
  newMark := fun f => k.newMark f ∘ h.newMark f

/-- Such a change after others. -/
theorem Eases.congr (h : Eases s t) (remote : u.remote = t.remote := by rfl) (lines : u.lines = t.lines := by rfl)
    (flags : u.flags = t.flags := by rfl) : Eases s u := h.trans (Eases.of_same remote lines flags)

/-! ## Single updates -/

theorem Eases.latch (h : Eases s t) (f : Flag) : Eases s (t.latch f) := by
  refine h.trans { Eases.refl t with flag := fun g hg => ?_, newMark := fun g hg => ?_ } <;> by_cases e : f = g
  · exact e ▸ t.flag_latch_self f
  · rwa [State.flag_latch_ne _ e]
  · exact e ▸ t.newMark_latch_self f
  · unfold State.newMark
    rwa [State.latch_flags, Table.get_set_ne _ _ (Flag.place_ne e)]

/-- A line whose request has left it, or whose owed-release mark has been cleared. -/
theorem Eases.setLine (h : Eases s t) (n : Fin 8) {l : Line} (hr : l.request = (t.line n).request ∨ l.request = none)
    (hp : l.penalty = (t.line n).penalty) (ho : (t.line n).owedRelease = false → l.owedRelease = false) :
    Eases s (t.setLine n l) := by
  refine h.trans { Eases.refl t with request := fun m => ?_, penalty := fun m => ?_, owed := fun m => ?_ } <;>
    rw [State.line_setLine] <;> split
  next e => exact e ▸ hr
  · exact .inl rfl
  next e => exact e ▸ hp
  · rfl
  next e => exact e ▸ ho
  · exact id

theorem Eases.recordOutcome (h : Eases s t) (src : Source) (o : RequestOutcome) : Eases s (t.recordOutcome src o) := by
  unfold State.recordOutcome
  split
  · exact h.congr
  · exact h

theorem Eases.recordPlayed (h : Eases s t) (src : Source) : Eases s (t.recordPlayed src) := by
  unfold State.recordPlayed
  split
  · exact h.congr
  · exact h

/-! ## FCH -/

theorem Eases.arbitrate (h : Eases s t) : Eases s t.arbitrate := by
  obtain ⟨vs, k, e, -⟩ := t.arbitrate_eq
  rw [e]
  exact h.congr

theorem Eases.testPrimed (h : Eases s t) (v : Fin 8) : Eases s (t.testPrimed v) := by
  unfold State.testPrimed
  dsimp only
  split
  · exact h.congr
  · exact h

theorem Eases.cutTransfer (h : Eases s t) (v : Fin 8) (x : Nat) : Eases s (t.cutTransfer v x) := by
  obtain ⟨k, e, -⟩ := t.cutTransfer_eq v x
  rw [e]
  exact h.congr

theorem Eases.beginTail (h : Eases s t) (v : Fin 8) : Eases s (t.beginTail v) := by
  unfold State.beginTail
  dsimp only
  split
  · exact ((Eases.cutTransfer h.congr v _).testPrimed v).arbitrate
  · exact h

/-! ## The transmit queue -/

theorem Eases.loseStart (h : Eases s t) (tag : Nat) : Eases s (t.loseStart tag) := by
  obtain ⟨vs, e⟩ := loseStart_eq (s := t) tag
  rw [e]
  exact h.congr

theorem Eases.place (h : Eases s t) (f : Frame) (key : Nat) : Eases s (t.place f key).1 := by
  rcases place_cases (s := t) f key with ⟨_, e⟩ | ⟨_, x, _, e⟩ | ⟨_, _, e⟩ <;> rw [e]
  · exact h.congr
  · obtain ⟨vs, ev⟩ := evicted_eq (s := { t with queue := placeEntry (newEntry f key) (dropLastWaiting t.queue) }.latch .txqDrop)
      x.frame
    exact ev ▸ Eases.congr (Eases.latch (t := { t with queue := placeEntry (newEntry f key) (dropLastWaiting t.queue) }) h.congr
      .txqDrop)
  · exact h.latch .txqDrop

theorem Eases.offerKey (h : Eases s t) (f : Frame) (key : Nat) : Eases s (t.offerKey f key).1 := by
  unfold State.offerKey
  split
  case h_1 => split; exacts [h.congr, h.place _ _]
  case h_2 => split; exacts [h, Eases.place h.congr _ _]
  case h_3 => split; exacts [h.congr, h.place _ _]
  case h_4 => split; exacts [h, h.place _ _]
  all_goals exact h.place _ _

theorem Eases.offer (h : Eases s t) (f : Frame) : Eases s (t.offer f) := h.offerKey f _

theorem Eases.queueRelease (h : Eases s t) (g : Nat) : Eases s (t.queueRelease g) := by
  unfold State.queueRelease
  split
  · exact h.offer _
  · exact h

/-! ## Announcing and freeing -/

theorem Eases.decideAnnounce (h : Eases s t) (v : Fin 8) : Eases s (t.decideAnnounce v) := by
  unfold State.decideAnnounce
  dsimp only
  split
  · have ho := Eases.offerKey (s := s) (t := t.setVoice v { t.voice v with announce := .queued }) h.congr
      (startFrame (t.cueOf (t.voice v)) (t.voice v).cue (t.tag v)) t.cfg.number
    split <;> rename_i he <;> rw [he] at ho
    · exact ho.loseStart _
    all_goals exact ho
  · exact h

theorem Eases.settleAnnounce (h : Eases s t) (a : Announce) (tag group : Nat) : Eases s (t.settleAnnounce a tag group) := by
  unfold State.settleAnnounce
  repeat' split
  all_goals first | exact h | exact h.congr | exact h.offer _

theorem Eases.dropHolding (h : Eases s t) (v : Fin 8) (tag : Nat) (i : Fin 15) : Eases s (t.dropHolding v tag i) := by
  unfold State.dropHolding
  dsimp only
  split
  · split
    · exact h.congr
    · exact Eases.queueRelease h.congr _
  · exact h

theorem Eases.clearOwedFor (h : Eases s t) (w : Voice) : Eases s (t.clearOwedFor w) := by
  unfold State.clearOwedFor
  split
  · exact h.setLine _ (.inl rfl) rfl fun _ => rfl
  · exact h

theorem Eases.withFreed (h : Eases s t) (v : Fin 8) : Eases s (t.withFreed v) := Eases.congr (h.clearOwedFor (t.voice v))

theorem Eases.freedLeft (h : Eases s t) (v : Fin 8) : Eases s (t.freedLeft v) :=
  inOrder_keeps (P := Eases s) (fun i _ ht => ht.dropHolding v (t.tag v) i) groupPlaces ((h.withFreed v).settleAnnounce _ _ _)

theorem Eases.freeVoice (h : Eases s t) (v : Fin 8) : Eases s (t.freeVoice v) := by
  have hl := h.freedLeft v
  rw [State.freeVoice_eq]
  generalize t.freedLeft v = u at hl ⊢
  exact hl.congr

/-! ## Claims, releases and the take -/

theorem Eases.settleClaim (h : Eases s t) (v : Fin 8) (o : RequestOutcome) : Eases s (t.settleClaim v o) := by
  unfold State.settleClaim
  dsimp only
  split
  · exact h.recordOutcome _ _
  · exact h
  · exact h

theorem Eases.withdraw (h : Eases s t) (v : Fin 8) (o : RequestOutcome) : Eases s (t.withdraw v o) :=
  (Eases.settleClaim h.congr v o).freeVoice v

theorem Eases.releaseVoice (h : Eases s t) (v : Fin 8) (r : Rate) : Eases s (t.releaseVoice v r) := by
  unfold State.releaseVoice
  dsimp only
  split
  case h_3 => exact h.beginTail v
  case h_4 | h_5 | h_7 => exact h.freeVoice v
  case h_6 => exact Eases.beginTail h.congr v
  case h_8 | h_9 => split; exacts [h.freeVoice v, h.congr]
  case h_10 =>
    split
    · split
      · exact h.freeVoice v
      · exact h.congr
    · exact h
  all_goals exact h

theorem Eases.queueClaim (h : Eases s t) (v : Fin 8) (g c : Nat) : Eases s (t.queueClaim v g c) := by
  unfold State.queueClaim
  split
  · have ho := h.offerKey (.claim (BitVec.ofNat 8 g) (BitVec.ofNat 8 c)) (claimKey t.cfg.number (t.lastWinner g))
    split <;> rename_i he <;> rw [he] at ho
    · exact ho.withdraw _ _
    all_goals exact ho
  · exact h

theorem Eases.take (h : Eases s t) (v : Fin 8) (c : Nat) (src : Source) : Eases s (t.take v c src) := by
  unfold State.take
  dsimp only
  split
  · exact Eases.queueClaim (t := t.takeSlot v c src true) h.congr v _ c
  · exact ((Eases.recordPlayed (t := t.takeSlot v c src false) h.congr src).decideAnnounce v).arbitrate

/-! ## Serving -/

theorem Eases.visit {α : Type} {f : α → State → State} (h : Eases s t) (hf : ∀ a u, Eases s u → Eases s (f a u)) (l : List α) :
    Eases s (visit f l t) := visit_keeps hf (fun _ _ hu => hu.congr) l h

theorem Eases.stealFor (h : Eases s t) (p : Nat) : Eases s (t.stealFor p) := by
  unfold State.stealFor
  repeat' split
  all_goals first | exact h | exact h.releaseVoice _ _

theorem Eases.stepVoice (h : Eases s t) (c : Nat) (src : Source) : Eases s (t.stepVoice c src).1 := by
  unfold State.stepVoice
  split
  · exact h.take _ _ _
  · split
    · exact (h.recordOutcome _ _).latch _
    · exact h.stealFor _

theorem Eases.stepGroup (h : Eases s t) (c : Nat) (src : Source) : Eases s (t.stepGroup c src).1 := by
  unfold State.stepGroup
  dsimp only
  split
  · exact h.stepVoice _ _
  · split
    · exact (h.visit (fun _ _ hu => hu.releaseVoice _ _) _).stepVoice _ _
    all_goals
      split
      · exact h.stepVoice _ _
      · exact h.recordOutcome _ _

theorem Eases.toggleVoice (h : Eases s t) (v : Fin 8) : Eases s (t.toggleVoice v) := by
  unfold State.toggleVoice
  split
  · exact h.withdraw _ _
  · exact h.releaseVoice _ _

theorem Eases.stepRetrigger (h : Eases s t) (c : Nat) (q : Cue) (src : Source) : Eases s (t.stepRetrigger c q src).1 := by
  unfold State.stepRetrigger
  split
  · exact h.stepGroup _ _
  · split
    · exact h.recordOutcome _ _
    · dsimp only
      split
      · exact h.recordOutcome _ _
      · exact (h.visit (fun _ _ hu => hu.toggleVoice _) _).recordOutcome _ _
    · exact (h.visit (fun _ _ hu => hu.releaseVoice _ _) _).stepGroup _ _
    · exact h.stepGroup _ _

theorem Eases.decideRequest (h : Eases s t) (c : Nat) (latched : Bool) (src : Source) :
    Eases s (t.decideRequest c latched src).1 := by
  unfold State.decideRequest
  split
  · exact h.recordOutcome _ _
  · split
    · split
      · exact h
      · exact h.recordOutcome _ _
    · split
      · exact h.recordOutcome _ _
      · exact h.stepRetrigger _ _ _

theorem Eases.clearRequest (h : Eases s t) (n : Fin 8) : Eases s (t.clearRequest n) := h.setLine n (.inr rfl) rfl id

theorem Eases.serveLine (h : Eases s t) (n : Fin 8) : Eases s (t.serveLine n) := by
  unfold State.serveLine
  split
  · exact h
  next r _ =>
    have hd := h.decideRequest r.cue r.latched (.line n)
    split <;> rename_i he <;> rw [he] at hd
    · exact hd.clearRequest n
    · exact hd

theorem Eases.serveRemote (fuel : Nat) (h : Eases s t) : Eases s (State.serveRemote fuel t) := by
  induction fuel generalizing t with
  | zero => exact h
  | succ n ih =>
    unfold State.serveRemote
    split
    · exact h
    next r _ _ =>
      have hd := h.decideRequest r.cue false .remote
      split <;> rename_i he <;> rw [he] at hd
      · exact ih (hd.trans { Eases.refl _ with remote := List.tail_suffix _ })
      · exact hd

theorem Eases.servePlace (h : Eases s t) (p : Fin 9) : Eases s (t.servePlace p) := by
  unfold State.servePlace
  split
  · exact h.serveLine _
  · exact h.serveRemote _

theorem Eases.passesFrom (fuel : Nat) (h : Eases s t) : Eases s (State.passesFrom fuel t) := by
  induction fuel generalizing t with
  | zero => exact h
  | succ n ih =>
    unfold State.passesFrom
    split
    · exact h
    · exact ih (inOrder_keeps (P := Eases s) (fun p _ hu => hu.servePlace p) _ h.congr)

theorem Eases.settlePasses (h : Eases s t) : Eases s t.settlePasses := h.passesFrom _

theorem Eases.runPass (h : Eases s t) : Eases s t.runPass := Eases.settlePasses h.congr

theorem Eases.visitServing {α : Type} {f : α → State → State} (h : Eases s t) (hf : ∀ a u, Eases s u → Eases s (f a u))
    (l : List α) : Eases s (visitServing f l t) := h.visit (fun a u hu => (hf a u hu).settlePasses) l

end Sys2Proof.Machine
end
section
/-! PROOF. An admitted request takes a voice: what the take does to the voices, to the queue and to all else (R41, R49 to R51, R64). -/

namespace Sys2Proof.Machine

set_option Elab.async false

variable {s t : State} {v : Fin 8}

/-! ## The lowest FREE voice (R41) -/

theorem LowestFree.lowestFree (h : LowestFree s v) : s.lowestFree = some v := by
  have hslots : slots = List.finRange 8 := by decide
  unfold State.lowestFree
  rw [hslots, List.find?_eq_some_iff_getElem]
  refine ⟨decide_eq_true h.free, v.val, by rw [List.length_finRange]; exact v.isLt, by simp, fun j hj => ?_⟩
  rw [List.getElem_finRange, Bool.not_eq_true', decide_eq_false_iff_not]
  exact h.lowest _ hj

theorem State.lowestFree_eq_none (h : ∀ u, (s.voice u).state ≠ .free) : s.lowestFree = none := by
  unfold State.lowestFree
  rw [List.find?_eq_none]
  exact fun u _ hu => h u (of_decide_eq_true hu)

/-! ## Which request is admitted (R37 to R40) -/

/-- A request that is admitted stays so where voices come into the way neither of its cue nor of its group. -/
theorem Admitted.transfer {c : Nat} {q : Cue} (h : Admitted s c q)
    (voices : ∀ u, (t.voice u).state.occupies = true →
      (s.voice u).state.occupies = true ∧ (t.voice u).cue = (s.voice u).cue ∨
      ((t.voice u).cue ≠ c ∨ q.retrigger = .layer) ∧ (q.group ≠ 0 → (t.cueOf (t.voice u)).group ≠ q.group))
    (cues : t.cues = s.cues := by rfl) (mode : t.mode = s.mode := by rfl) (cfg : t.cfg = s.cfg := by rfl)
    (armed : ∀ g, t.armed g = s.armed g := by exact fun _ => rfl)
    (holder : ∀ g, t.holder g = s.holder g := by exact fun _ => rfl) : Admitted t c q := by
  have hrecord : ∀ n, t.record n = s.record n := fun n => by
    unfold State.record
    rw [cues]
  have hcue : ∀ w u : Voice, w.cue = u.cue → t.cueOf w = s.cueOf u := fun w u e => by
    unfold State.cueOf State.present?
    rw [hrecord, e]
  have hmode : t.groupMode q.group = s.groupMode q.group := by
    unfold State.groupMode
    rw [cfg]
  refine ⟨(hrecord c).trans h.record, (armed _).trans h.armed, fun hf => ?_, ?_, fun hg u hu => ?_⟩
  · rw [mode, holder]
    exact h.open_ (hmode ▸ hf)
  · refine or_iff_not_imp_right.mpr fun hlayer u hu => ?_
    rcases voices u hu with ⟨hs, hc⟩ | ⟨hc, -⟩
    · rw [hc]
      exact h.cue.resolve_right hlayer u hs
    · exact hc.resolve_right hlayer
  · rcases voices u hu with ⟨hs, hc⟩ | ⟨-, hc⟩
    · rw [hcue _ _ hc]
      exact h.group hg u hs
    · exact hc hg

/-- A request is admitted by the voices, the settings, the mode and the group views alone. -/
theorem Admitted.congr {c : Nat} {q : Cue} (h : Admitted s c q) (voices : t.voices = s.voices := by rfl)
    (cues : t.cues = s.cues := by rfl) (mode : t.mode = s.mode := by rfl) (cfg : t.cfg = s.cfg := by rfl)
    (groups : t.groups = s.groups := by rfl) : Admitted t c q := by
  refine h.transfer (fun u hu => .inl ?_) cues mode cfg (fun g => ?_) fun g => ?_
  · unfold State.voice at hu ⊢
    rw [voices] at hu ⊢
    exact ⟨hu, rfl⟩
  · unfold State.armed
    rw [groups]
  · unfold State.holder
    rw [groups]

/-! ## The decision to announce (R64, R65) -/

/-- The voice under way to be announced: QUEUED, with its START in the queue and no END of its tag waiting. -/
def State.announced (s : State) (v : Fin 8) : State :=
  { s.setVoice v { s.voice v with announce := .queued } with
    queue := placeEntry (newEntry (startFrame (s.cueOf (s.voice v)) (s.voice v).cue (s.tag v)) s.cfg.number)
      (s.takeOut (Frame.isEndOf (s.tag v))).queue }

theorem Cue.emits_iff (q : Cue) : q.emits = true ↔ q.emit ≠ 0 := bne_iff_ne

theorem decideAnnounce_of_silent (h : s.mode ≠ .run ∨ (s.cueOf (s.voice v)).group = 0 ∧ (s.cueOf (s.voice v)).emit = 0) :
    s.decideAnnounce v = s := by
  unfold State.decideAnnounce
  dsimp only
  refine if_neg fun hc => ?_
  rw [Bool.and_eq_true, Bool.or_eq_true, decide_eq_true_iff, Cue.emits_iff] at hc
  rcases h with h | ⟨hg, he⟩
  · exact h (of_decide_eq_true hc.1)
  · exact hc.2.elim (· hg) (· he)

theorem decideAnnounce_of_room (hrun : s.mode = .run)
    (hq : (s.cueOf (s.voice v)).group ≠ 0 ∨ (s.cueOf (s.voice v)).emit ≠ 0)
    (hfly : s.hasFlying (Frame.isEndOf (s.tag v)) = false) (hroom : s.hasRoom) : s.decideAnnounce v = s.announced v := by
  have hcond : (s.isRun && (decide ((s.cueOf (s.voice v)).group ≠ 0) || (s.cueOf (s.voice v)).emits)) = true := by
    rw [Bool.and_eq_true, Bool.or_eq_true, decide_eq_true_iff, Cue.emits_iff]
    exact ⟨decide_eq_true hrun, hq⟩
  have htag : (BitVec.ofNat 8 (s.tag v)).toNat = s.tag v := by simp [Nat.mod_eq_of_lt (s.tag_lt v)]
  have hflying : (s.setVoice v { s.voice v with announce := .queued }).hasFlying (Frame.isEndOf (s.tag v)) = false := hfly
  have hroom' : ((s.setVoice v { s.voice v with announce := .queued }).takeOut (Frame.isEndOf (s.tag v))).hasRoom :=
    Nat.lt_of_le_of_lt (List.length_filter_le _ _) hroom
  have hoffer : (s.setVoice v { s.voice v with announce := .queued }).offerKey
      (startFrame (s.cueOf (s.voice v)) (s.voice v).cue (s.tag v)) s.cfg.number = (s.announced v, .placed) := by
    unfold startFrame State.offerKey
    dsimp only
    rw [htag, hflying, if_neg Bool.false_ne_true, place_of_room _ _ hroom']
    rfl
  unfold State.decideAnnounce
  dsimp only
  rw [if_pos hcond, hoffer]

/-- The decision to announce touches the voices, the queue and the flags only. -/
theorem decideAnnounce_frame (s : State) (v : Fin 8) :
    ∃ vs q g, s.decideAnnounce v = { s with voices := vs, queue := q, flags := g } := by
  unfold State.decideAnnounce
  dsimp only
  split
  · obtain ⟨q, vs, g, e⟩ := offerKey_eq (s := s.setVoice v { s.voice v with announce := .queued })
      (startFrame (s.cueOf (s.voice v)) (s.voice v).cue (s.tag v)) s.cfg.number
    split <;> rename_i he <;> rw [he] at e <;> dsimp only at e
    · obtain ⟨us, eu⟩ := loseStart_eq (s := { s with voices := vs, queue := q, flags := g }) (s.tag v)
      exact ⟨us, q, g, e ▸ eu⟩
    all_goals exact ⟨vs, q, g, e⟩
  · exact ⟨s.voices, s.queue, s.flags, rfl⟩

/-! ## The take (R41, R51) -/

/-- A request of source src, whose place is p, for cue c with fields q has taken voice v of s into PRIMING, and ended PLAYED. -/
structure Takes (s t : State) (v : Fin 8) (c : Nat) (q : Cue) (src : Source) (p : Fin 9) : Prop where
  frame : t =
    { s with
      voices := t.voices
      link := t.link
      queue := t.queue
      flags := t.flags
      startCounter := (s.startCounter + 1) % 65536
      outcomes := s.outcomes.set p (some .played)
      pointer := p + 1 }
  voice : JustTaken (s.voice v) (t.voice v) s.startCounter c src .priming
  claimed : (t.voice v).claimed = .none
  others : ∀ u, u ≠ v → Untouched (s.voice u) (t.voice u)
  eases : Eases s t
  silent : s.mode ≠ .run ∨ q.group = 0 ∧ q.emit = 0 →
    (t.voice v).announce = .localOnly ∧ t.queue = s.queue ∧ t.flags = s.flags
  queued : s.mode = .run → q.group ≠ 0 ∨ q.emit ≠ 0 → s.hasRoom →
    (∀ e ∈ s.queue, e.frame.isEndOf ((s.voice v).generation.succ % 32 * 8 + v.val) = false) →
    (t.voice v).announce = .queued ∧ t.flags = s.flags ∧
      Placed s.queue t.queue (newEntry (startFrame q c ((s.voice v).generation.succ % 32 * 8 + v.val)) s.cfg.number)

/-- The station with voice v taken into PRIMING for a request that has ended PLAYED, not yet announced. -/
def State.taken (s : State) (v : Fin 8) (c : Nat) (src : Source) (p : Fin 9) : State :=
  { s.setVoice v (takenVoice (s.voice v).generation s.startCounter c src false) with
    startCounter := (s.startCounter + 1) % 65536
    outcomes := s.outcomes.set p (some .played)
    pointer := p + 1 }

theorem State.taken_voice (s : State) (v : Fin 8) (c : Nat) (src : Source) (p : Fin 9) :
    (s.taken v c src p).voice v = takenVoice (s.voice v).generation s.startCounter c src false := s.voice_setVoice_self v _

theorem State.taken_tag (s : State) (v : Fin 8) (c : Nat) (src : Source) (p : Fin 9) :
    (s.taken v c src p).tag v = (s.voice v).generation.succ % 32 * 8 + v.val := by
  unfold State.tag
  rw [State.taken_voice]
  change (((s.voice v).generation + 1) % 32 * 8 + v.val) % 256 = _
  have hv := v.isLt
  have hg : ((s.voice v).generation + 1) % 32 < 32 := Nat.mod_lt _ (by omega)
  rw [Nat.succ_eq_add_one, Nat.mod_eq_of_lt]
  omega

/-- Outside FIRST_WINS a take is the announcement of the voice just taken, and a call of the arbiter. -/
theorem State.take_eq {c : Nat} {src : Source} {p : Fin 9} (hg : s.groupMode (s.groupOf c) ≠ .firstWins)
    (hp : src.place = some p) : s.take v c src = ((s.taken v c src p).decideAnnounce v).arbitrate := by
  have hplayed : (s.takeSlot v c src false).recordPlayed src = s.taken v c src p := by
    unfold State.recordPlayed
    rw [hp]
    rfl
  unfold State.take
  dsimp only
  rw [if_neg hg, hplayed]

theorem JustTaken.of_untouched {w u x : Voice} {n c : Nat} {src : Source} {st : VoiceState} (h : JustTaken w u n c src st)
    (hx : Untouched u x) : JustTaken w x n c src st := by
  rw [hx.rest]
  exact ⟨h.generation, h.state, h.cue, h.source, h.startSeq, h.playOffset, h.buffer, h.tail, h.level, h.counters, h.stopMark⟩

theorem State.take_takes {c : Nat} {q : Cue} {src : Source} {p : Fin 9} (hrec : s.record c = .present q)
    (hg : s.groupMode q.group ≠ .firstWins) (hp : src.place = some p) : Takes s (s.take v c src) v c q src p := by
  have htake := State.take_eq (s := s) (v := v) (by rwa [State.groupOf_of_record hrec]) hp
  have hcue : (s.taken v c src p).cueOf ((s.taken v c src p).voice v) = q := by
    rw [State.taken_voice]
    unfold State.cueOf
    have hpres : (s.taken v c src p).present? c = some q := State.present?_of_record hrec
    exact congrArg (·.getD Cue.blank) hpres
  have heases := (Eases.refl s).take v c src
  obtain ⟨a, hann⟩ := decideAnnounce_announces (s.taken v c src p) v
  obtain ⟨us, qu, fl, hframe⟩ := decideAnnounce_frame (s.taken v c src p) v
  have hsilent := decideAnnounce_of_silent (s := s.taken v c src p) (v := v)
  have hroom := decideAnnounce_of_room (s := s.taken v c src p) (v := v)
  rw [hcue] at hsilent hroom
  generalize hz : (s.taken v c src p).decideAnnounce v = z at htake hann hframe hsilent hroom
  obtain ⟨vs, k, harb, -⟩ := z.arbitrate_eq
  have hfetch : ∀ u, Untouched (z.voice u) (z.arbitrate.voice u) := fun u => (State.arbitrate_voice u).untouched
  have hannounce : (z.arbitrate.voice v).announce = (z.voice v).announce := by
    have hsame : SameButFetch (z.voice v) (z.arbitrate.voice v) := State.arbitrate_voice v
    rw [hsame]
  have hv := hann.voice v
  rw [State.voice_setVoice_self, State.taken_voice] at hv
  have hsame : z.arbitrate.queue = z.queue ∧ z.arbitrate.flags = z.flags := by
    rw [harb]
    exact ⟨rfl, rfl⟩
  rw [htake] at heases ⊢
  refine ⟨?_, ?_, ?_, fun u hu => ?_, heases, fun hs => ?_, fun hrun hq hhas hno => ?_⟩
  · rw [harb, hframe]
    rfl
  · refine JustTaken.of_untouched ?_ (hfetch v)
    rw [hv.rest]
    exact ⟨rfl, rfl, rfl, rfl, rfl, rfl, rfl, rfl, ⟨rfl, rfl, rfl⟩, ⟨rfl, rfl⟩, rfl⟩
  · rw [(hfetch v).rest, hv.rest]
    rfl
  · refine Untouched.trans ?_ (hfetch u)
    have hu' := hann.voice u
    rw [State.voice_setVoice_ne _ _ hu.symm] at hu'
    have hbase : (s.taken v c src p).voice u = s.voice u := State.voice_setVoice_ne s _ hu.symm
    rw [hbase] at hu'
    exact hu'.untouched
  · rw [hannounce, hsame.1, hsame.2, hsilent hs, State.taken_voice]
    exact ⟨rfl, rfl, rfl⟩
  · have hwaits : (s.taken v c src p).hasFlying (Frame.isEndOf ((s.taken v c src p).tag v)) = false := by
      rw [State.taken_tag]
      unfold State.hasFlying
      rw [List.any_eq_false]
      intro e he
      rw [hno e he, Bool.and_false]
      exact Bool.false_ne_true
    have htaken : ((s.taken v c src p).takeOut (Frame.isEndOf ((s.taken v c src p).tag v))).queue = s.queue := by
      rw [State.taken_tag, State.takeOut_queue]
      exact List.filter_eq_self.mpr fun e he => by rw [hno e he, Bool.and_false, Bool.not_false]
    rw [hannounce, hsame.1, hsame.2, hroom hrun hq hwaits hhas]
    unfold State.announced
    rw [htaken, hcue, State.taken_voice, State.taken_tag]
    exact ⟨congrArg Voice.announce (State.voice_setVoice_self _ v _), rfl, placeEntry_placed _ _⟩

end Sys2Proof.Machine
end
section
/-! PROOF. A press whose request is admitted: a FIRST_WINS press claims (FirstWinsPressClaims), any other takes the lowest FREE voice. -/

namespace Sys2Proof.Machine

set_option Elab.async false

variable {s : State} {n v : Fin 8} {c : Byte} {q : Cue}

/-! ## The pass of a press (R27, R36) -/

theorem State.line_withPress (s : State) (n : Fin 8) (c : Nat) :
    (s.withPress n c).line n = { (s.line n).pressed with request := some { cue := c, latched := false, age := 0 } } :=
  s.line_setLine_self n _

/-- The pass of a press serves its request, and no other. -/
theorem Presses.exec_serveLine (h : Presses s n c) (ha : s.armed (s.groupOf c.toNat) = true)
    (hp : ((s.withPress n c.toNat).serveLine n).passesDue = 0) :
    Machine.exec (.playPress n) s = .next ((s.withPress n c.toNat).serveLine n) := by
  have hbefore : AtMostLine (s.withPress n c.toNat) n := h.requests.atMostLine n _
  have heases := (Eases.refl (s.withPress n c.toNat)).serveLine n
  have hafter : AtMostLine ((s.withPress n c.toNat).serveLine n) n :=
    ⟨fun m hm => (heases.request m).elim (·.trans (hbefore.others m hm)) id, List.suffix_nil.mp (hbefore.remote ▸ heases.remote)⟩
  rw [h.exec ha, hbefore.runPass h.requests.passes hafter hp]

/-- A request that is decided and leaves. -/
theorem State.serveLine_of_leaves {t : State} {r : Request} (hr : (s.line n).request = some r)
    (hd : s.decideRequest r.cue r.latched (.line n) = (t, .leaves)) : s.serveLine n = t.clearRequest n := by
  unfold State.serveLine
  rw [hr]
  dsimp only
  rw [hd]

/-- A request that is decided and stays. -/
theorem State.serveLine_of_stays {t : State} {r : Request} (hr : (s.line n).request = some r)
    (hd : s.decideRequest r.cue r.latched (.line n) = (t, .stays)) : s.serveLine n = t := by
  unfold State.serveLine
  rw [hr]
  dsimp only
  rw [hd]

theorem State.request_withPress (s : State) (n : Fin 8) (c : Nat) :
    ((s.withPress n c).line n).request = some { cue := c, latched := false, age := 0 } :=
  congrArg Line.request (s.line_withPress n c)

/-- The request of a press has left, and the line is as the press made it. -/
theorem Presses.clearRequest_lines (h : Presses s n c) {t : State} (ht : t.lines = (s.withPress n c.toNat).lines) :
    (t.clearRequest n).lines = (s.setLine n (s.line n).pressed).lines := by
  have hnone : { (s.line n).pressed with request := none } = (s.line n).pressed :=
    congrArg (fun r => { (s.line n).pressed with request := r }) (h.requests.lines n).symm
  have hline : t.line n = { (s.line n).pressed with request := some { cue := c.toNat, latched := false, age := 0 } } :=
    (congrArg (fun l => Table.get l n) ht).trans (s.line_withPress n c.toNat)
  have hset : (t.clearRequest n).lines = t.lines.set n { t.line n with request := none } := rfl
  rw [hset, hline, ht]
  exact (congrArg State.lines (State.setLine_setLine n _ _)).trans
    (congrArg (fun l => (s.setLine n l).lines) hnone)

/-! ## FIRST_WINS (R41, R79, R80) -/

theorem claimKey_spec {number winner : Nat} (hn : number ≤ 30) (hw : winner ≤ 31) :
    claimKey number winner < 32 ∧ (claimKey number winner + winner + 1) % 32 = number := by
  unfold claimKey
  omega

/-- A voice taken for a FIRST_WINS group is CLAIMING, with its CLAIM in the queue. -/
theorem State.take_claims {c : Nat} {src : Source} (hg : s.groupMode (s.groupOf c) = .firstWins) (hrun : s.mode = .run)
    (hroom : s.hasRoom) :
    s.take v c src =
      { s.takeSlot v c src true with
        queue := placeEntry
          (newEntry (.claim (BitVec.ofNat 8 (s.groupOf c)) (BitVec.ofNat 8 c)) (claimKey s.cfg.number (s.lastWinner (s.groupOf c))))
          s.queue } := by
  have htake : s.take v c src = (s.takeSlot v c src true).queueClaim v (s.groupOf c) c := if_pos hg
  have hplace := place_of_room (s := s.takeSlot v c src true) (.claim (BitVec.ofNat 8 (s.groupOf c)) (BitVec.ofNat 8 c))
    (claimKey s.cfg.number (s.lastWinner (s.groupOf c))) hroom
  rw [htake]
  unfold State.queueClaim
  refine (if_pos (decide_eq_true hrun)).trans ?_
  have hoffer : (s.takeSlot v c src true).offerKey (.claim (BitVec.ofNat 8 (s.groupOf c)) (BitVec.ofNat 8 c))
      (claimKey (s.takeSlot v c src true).cfg.number ((s.takeSlot v c src true).lastWinner (s.groupOf c))) = _ := hplace
  rw [hoffer]
  rfl

/-- Settles O29: the press is admitted, so that its pass takes the lowest FREE voice (`State.take_claims`) and the request leaves. -/
theorem firstWinsPressClaims : Obligations.FirstWinsPressClaims := by
  intro s n c q v h hadm hmode hfree hnumber hwinner hroom
  have hgroup : (s.withPress n c.toNat).groupOf c.toNat = q.group := State.groupOf_of_record hadm.record
  have hadm' : Admitted (s.withPress n c.toNat) c.toNat q := hadm.congr
  have hfree' : LowestFree (s.withPress n c.toNat) v := ⟨hfree.free, hfree.lowest⟩
  have hcode : BitVec.ofNat 8 c.toNat = c := by simp
  have htake := State.take_claims (s := s.withPress n c.toNat) (v := v) (c := c.toNat) (src := .line n)
    (by rw [hgroup]; exact hmode) (hadm.open_ hmode).1 hroom
  have hstep : (s.withPress n c.toNat).stepVoice c.toNat (.line n) = ((s.withPress n c.toNat).take v c.toNat (.line n), .leaves) := by
    unfold State.stepVoice
    rw [hfree'.lowestFree]
  have hserve := State.serveLine_of_leaves (s.request_withPress n c.toNat) ((hadm'.decideRequest false (.line n)).trans hstep)
  rw [htake, hgroup, hcode] at hserve
  have hlines := h.clearRequest_lines (t := (s.withPress n c.toNat).take v c.toNat (.line n)) (by rw [htake]; rfl)
  rw [htake, hgroup, hcode] at hlines
  have hexec := h.exec_serveLine (by rw [show s.groupOf c.toNat = q.group from hgroup]; exact hadm.armed)
    (by rw [hserve]; exact h.requests.passes)
  rw [hserve] at hexec
  obtain ⟨hk, hkey⟩ := claimKey_spec hnumber hwinner
  have hvoice := State.voice_setVoice_self s v (takenVoice (s.voice v).generation s.startCounter c.toNat (.line n) true)
  refine ⟨_, claimKey s.cfg.number (s.lastWinner q.group), hexec, hk, hkey, ?_, ?_, ?_, fun u hu => ?_, placeEntry_placed _ _, ?_⟩
  · exact hvoice ▸ ⟨rfl, rfl, rfl, rfl, rfl, rfl, rfl, rfl, ⟨rfl, rfl, rfl⟩, ⟨rfl, rfl⟩, rfl⟩
  · exact congrArg Voice.claimed hvoice
  · exact congrArg Voice.announce hvoice
  · exact State.voice_setVoice_ne s _ hu.symm
  · rw [← hlines]
    rfl

end Sys2Proof.Machine
end
section
/-! PROOF. Voices that fall to RELEASING, and the presses that make them: RESTART and LAST_WINS (PressTakesTheLowestFreeVoice), TOGGLE
(TogglePressReleasesTheCue). -/

namespace Sys2Proof.Machine

set_option Elab.async false

variable {s t x : State} {n v : Fin 8} {c : Byte} {q : Cue} {r : Rate} {l : List (Fin 8)}

/-! ## Voices that fall (R58, R60) -/

/-- From s to t the voices of l have fallen to RELEASING at rate r, and have joined the releasing list in some order. -/
structure Falls (r : Rate) (l : List (Fin 8)) (s t : State) : Prop where
  frame : t = { s with voices := t.voices, releasing := t.releasing, choices := t.choices }
  voice : ∀ u, t.voice u = if u ∈ l then (s.voice u).runDown r else s.voice u
  releasing : ∃ joined, t.releasing = s.releasing ++ joined ∧ ∀ u, u ∈ joined ↔ u ∈ l

theorem Falls.refl (r : Rate) (s : State) : Falls r [] s s :=
  ⟨rfl, fun _ => (if_neg List.not_mem_nil).symm, [], (List.append_nil _).symm, fun _ => Iff.rfl⟩

/-- The fall of one voice. -/
def State.falls (s : State) (v : Fin 8) (r : Rate) : State := (s.setVoice v ((s.voice v).runDown r)).joinReleasing v

theorem State.falls_falls (s : State) (v : Fin 8) (r : Rate) : Falls r [v] s (s.falls v r) := by
  refine ⟨rfl, fun u => ?_, [v], rfl, fun _ => Iff.rfl⟩
  have hu : (s.falls v r).voice u = if v = u then (s.voice v).runDown r else s.voice u := State.voice_setVoice _ u v _
  rw [hu]
  by_cases h : v = u
  · rw [if_pos h, if_pos (List.mem_singleton.mpr h.symm), h]
  · rw [if_neg h, if_neg fun hm => h (List.mem_singleton.mp hm).symm]

theorem Falls.trans {k m : List (Fin 8)} (h : Falls r k s x) (hx : Falls r m x t) (hdisjoint : ∀ u ∈ k, u ∉ m)
    (hl : ∀ u, u ∈ l ↔ u ∈ k ∨ u ∈ m) : Falls r l s t := by
  obtain ⟨j, hj, hjk⟩ := h.releasing
  obtain ⟨j', hj', hjm⟩ := hx.releasing
  refine ⟨by rw [hx.frame, h.frame], fun u => ?_, j ++ j', by rw [hj', hj, List.append_assoc], fun u => ?_⟩
  · rw [hx.voice, h.voice]
    by_cases hk : u ∈ k
    · rw [if_neg (hdisjoint u hk), if_pos hk, if_pos ((hl u).mpr (.inl hk))]
    · rw [if_neg hk]
      exact if_congr (by rw [hl, or_iff_right hk]) rfl rfl
  · rw [List.mem_append, hjk, hjm, hl]

theorem Falls.of_choices {k : Nat} (h : Falls r l { s with choices := k } t) : Falls r l s t :=
  ⟨h.frame, h.voice, h.releasing⟩

/-- A visit that makes each of its voices fall, as it stands at its turn, makes them all fall. -/
theorem visitFrom_falls {f : Fin 8 → State → State} (k : Nat) (hk : l.length ≤ k) (hl : l.Nodup)
    (hf : ∀ u ∈ l, ∀ t : State, t.cues = s.cues → t.cfg = s.cfg → t.voice u = s.voice u → f u t = t.falls u r) :
    Falls r l s (visitFrom f k l s) := by
  induction k generalizing l s with
  | zero =>
    obtain rfl := List.eq_nil_of_length_eq_zero (Nat.le_zero.mp hk)
    exact Falls.refl r s
  | succ k ih =>
    match l with
    | [] => exact Falls.refl r s
    | [a] =>
      have ha : f a s = s.falls a r := hf a List.mem_cons_self s rfl rfl rfl
      exact (ha ▸ s.falls_falls a r : Falls r [a] s (f a s))
    | a :: b :: rest =>
      unfold visitFrom
      dsimp only
      generalize hall : a :: b :: rest = all at hk hl hf ⊢
      have hi : Config.freeChoice s.choices % all.length < all.length :=
        Nat.mod_lt _ (by rw [← hall]; exact Nat.succ_pos _)
      generalize Config.freeChoice s.choices % all.length = i at hi ⊢
      rw [List.getD_eq_getElem _ _ hi]
      have hperm := List.getElem_cons_eraseIdx_perm hi
      have hnodup := hperm.symm.nodup hl
      rw [List.nodup_cons] at hnodup
      rw [hf _ (List.getElem_mem hi) { s with choices := s.choices + 1 } rfl rfl rfl]
      have hfirst := Falls.of_choices (State.falls_falls { s with choices := s.choices + 1 } all[i] r)
      have hlen : (all.eraseIdx i).length ≤ k := by
        rw [List.length_eraseIdx, if_pos hi]
        omega
      generalize State.falls { s with choices := s.choices + 1 } all[i] r = y at hfirst
      have hcues : y.cues = s.cues := by rw [hfirst.frame]
      have hcfg : y.cfg = s.cfg := by rw [hfirst.frame]
      refine hfirst.trans (ih hlen hnodup.2 fun u hu t htcues htcfg htu => ?_) (fun u hu => List.mem_singleton.mp hu ▸ hnodup.1) fun u => ?_
      · have hne : u ∉ [all[i]] := fun h => hnodup.1 (List.mem_singleton.mp h ▸ hu)
        refine hf u (List.mem_of_mem_eraseIdx hu) t (htcues.trans hcues) (htcfg.trans hcfg) ?_
        rw [htu, hfirst.voice, if_neg hne]
      · rw [List.mem_singleton, ← hperm.mem_iff, List.mem_cons]

/-- A SOUNDING voice above 0 falls at a release by CUT or by a fade at an index from 1 (R58). -/
theorem State.releaseVoice_falls (hs : (s.voice v).state = .sounding) (hl : (s.voice v).level ≠ 0) (hr : r ≠ .tail)
    (h0 : r ≠ .fade 0) : s.releaseVoice v r = s.falls v r := by
  unfold State.releaseVoice
  dsimp only
  rw [hs]
  match r with
  | .fade 0 => exact absurd rfl h0
  | .fade (k + 1) => exact if_neg hl
  | .cut => exact if_neg hl
  | .tail => exact absurd rfl hr

theorem State.mem_voicesOfCue {m : Nat} {p : VoiceState → Bool} :
    v ∈ s.voicesOfCue m p ↔ p (s.voice v).state = true ∧ (s.voice v).cue = m := by
  simp [State.voicesOfCue, mem_slots]

theorem State.mem_voicesOfGroup {g : Nat} {p : VoiceState → Bool} :
    v ∈ s.voicesOfGroup g p ↔ p (s.voice v).state = true ∧ (s.cueOf (s.voice v)).group = g := by
  simp [State.voicesOfGroup, mem_slots]

theorem slots_filter_nodup (p : Fin 8 → Bool) : (slots.filter p).Nodup := List.Nodup.filter _ (by decide)

theorem VoiceState.fresh_iff (w : VoiceState) : w.fresh = true ↔ w = .priming ∨ w = .sounding := by
  cases w <;> decide

/-! ## RESTART and the group step (R39, R40) -/

/-- Voice v is one that a RESTART of cue m cuts (R39). -/
def State.cutBy (s : State) (q : Cue) (m : Nat) (v : Fin 8) : Prop :=
  q.retrigger = .restart ∧ (s.voice v).state.fresh = true ∧ (s.voice v).cue = m

/-- Voice v is one that the group step of a cue of a LAST_WINS group chokes (R40). -/
def State.chokedBy (s : State) (q : Cue) (v : Fin 8) : Prop :=
  q.group ≠ 0 ∧ s.groupMode q.group = .lastWins ∧ (s.voice v).state.fresh = true ∧ (s.cueOf (s.voice v)).group = q.group

/-- Step 4 of a RESTART or LAYER cue cuts the voices of a RESTART cue and goes on (R39). -/
theorem State.stepRetrigger_cuts {m : Nat} (src : Source) (hq : q.retrigger = .restart ∨ q.retrigger = .layer)
    (hsound : ∀ u, s.cutBy q m u → (s.voice u).state = .sounding ∧ (s.voice u).level ≠ 0) :
    ∃ l t, s.stepRetrigger m q src = t.stepGroup m src ∧ Falls .cut l s t ∧ ∀ u, u ∈ l ↔ s.cutBy q m u := by
  have hnone : (∀ u, ¬s.cutBy q m u) → ∀ u, u ∈ ([] : List (Fin 8)) ↔ s.cutBy q m u :=
    fun h u => ⟨nofun, fun hu => absurd hu (h u)⟩
  by_cases hempty : (s.voicesOfCue m VoiceState.occupies).isEmpty = true
  · refine ⟨[], s, if_pos hempty, Falls.refl _ s, hnone fun u hu => ?_⟩
    exact (s.voicesOfCue_isEmpty m _).mp hempty u (VoiceState.occupies_of_fresh hu.2.1) hu.2.2
  · unfold State.stepRetrigger
    rw [if_neg hempty]
    rcases hq with hq | hq <;> rw [hq]
    · have hmem : ∀ u, u ∈ s.voicesOfCue m VoiceState.fresh ↔ s.cutBy q m u := fun u =>
        State.mem_voicesOfCue.trans (and_iff_right hq).symm
      refine ⟨_, _, rfl, visitFrom_falls _ (Nat.le_refl _) (slots_filter_nodup _) fun u hu t _ _ ht => ?_, hmem⟩
      obtain ⟨hstate, hlevel⟩ := hsound u ((hmem u).mp hu)
      exact State.releaseVoice_falls (by rw [ht]; exact hstate) (by rw [ht]; exact hlevel) nofun nofun
    · exact ⟨[], s, rfl, Falls.refl _ s, hnone fun u hu => nomatch hq.symm.trans hu.1⟩

/-- Step 5 outside FIRST_WINS chokes the voices of a LAST_WINS group and goes on, where no voice is in a NONE group (R40). -/
theorem State.stepGroup_chokes {m : Nat} (src : Source) (hrec : s.record m = .present q)
    (hfirst : s.groupMode q.group ≠ .firstWins)
    (hother : q.group ≠ 0 → s.groupMode q.group = .none →
      ∀ u, (s.voice u).state.fresh = true → (s.cueOf (s.voice u)).group ≠ q.group)
    (hfade : s.groupMode q.group = .lastWins → s.chokeFade q.group ≠ 0)
    (hsound : ∀ u, s.chokedBy q u → (s.voice u).state = .sounding ∧ (s.voice u).level ≠ 0) :
    ∃ l t, s.stepGroup m src = t.stepVoice m src ∧ Falls (.fade (s.chokeFade q.group)) l s t ∧ ∀ u, u ∈ l ↔ s.chokedBy q u := by
  have hgroup : s.groupOf m = q.group := State.groupOf_of_record hrec
  unfold State.stepGroup
  dsimp only
  rw [hgroup]
  by_cases hg : q.group = 0
  · exact ⟨[], s, if_pos hg, Falls.refl _ s, fun u => ⟨nofun, fun hu => absurd hg hu.1⟩⟩
  · rw [if_neg hg]
    cases hmode : s.groupMode q.group with
    | firstWins => exact absurd hmode hfirst
    | none =>
      exact ⟨[], s, if_pos ((s.voicesOfGroup_isEmpty _ _).mpr (hother hg hmode)), Falls.refl _ s,
        fun u => ⟨nofun, fun hu => nomatch hmode.symm.trans hu.2.1⟩⟩
    | lastWins =>
      have hmem : ∀ u, u ∈ s.voicesOfGroup q.group VoiceState.fresh ↔ s.chokedBy q u := fun u =>
        State.mem_voicesOfGroup.trans ⟨fun h => ⟨hg, hmode, h⟩, fun h => h.2.2⟩
      refine ⟨_, _, rfl, visitFrom_falls _ (Nat.le_refl _) (slots_filter_nodup _) fun u hu t _ hcfg ht => ?_, hmem⟩
      obtain ⟨hstate, hlevel⟩ := hsound u ((hmem u).mp hu)
      have hk : t.chokeFade q.group = s.chokeFade q.group := by
        unfold State.chokeFade
        rw [hcfg]
      rw [hk]
      exact State.releaseVoice_falls (by rw [ht]; exact hstate) (by rw [ht]; exact hlevel) nofun
        fun h0 => hfade hmode (Rate.fade.inj h0)

end Sys2Proof.Machine
end
section
/-! PROOF. A press takes the lowest FREE voice (PressTakesTheLowestFreeVoice); a TOGGLE press releases its cue
(TogglePressReleasesTheCue). -/

namespace Sys2Proof.Machine

set_option Elab.async false

variable {s t : State} {n v : Fin 8} {c : Byte} {q : Cue}

/-- Step 6 with a FREE voice takes the lowest one (R41). -/
theorem LowestFree.stepVoice (h : LowestFree s v) (m : Nat) (src : Source) : s.stepVoice m src = (s.take v m src, .leaves) := by
  unfold State.stepVoice
  rw [h.lowestFree]

/-- A press whose request comes to step 6 in a state t with a FREE voice takes that voice. -/
theorem Presses.exec_takes (h : Presses s n c) (hrec : s.record c.toNat = .present q) (harm : s.armed q.group = true)
    (hd : (s.withPress n c.toNat).decideRequest c.toNat false (.line n) = t.stepVoice c.toNat (.line n)) (hv : LowestFree t v)
    (hg : t.groupMode q.group ≠ .firstWins) (htrec : t.record c.toNat = .present q) (hp : t.passesDue = 0) :
    Machine.exec (.playPress n) s = .next ((t.take v c.toNat (.line n)).clearRequest n) ∧
      Kept s ((t.take v c.toNat (.line n)).clearRequest n) ∧ Takes t (t.take v c.toNat (.line n)) v c.toNat q (.line n) n.castSucc := by
  have htakes : Takes t (t.take v c.toNat (.line n)) v c.toNat q (.line n) n.castSucc := State.take_takes htrec hg rfl
  have hserve := State.serveLine_of_leaves (s.request_withPress n c.toNat) (hd.trans (hv.stepVoice c.toNat (.line n)))
  have hkept : Kept s ((s.withPress n c.toNat).serveLine n) :=
    (kept_stable s).serveLine n ((kept_stable s).setLine n _ (Kept.refl s))
  have hpasses : ((t.take v c.toNat (.line n)).clearRequest n).passesDue = 0 :=
    (congrArg State.passesDue htakes.frame).trans hp
  have hexec := h.exec_serveLine (by rw [State.groupOf_of_record hrec]; exact harm) (by rw [hserve]; exact hpasses)
  rw [hserve] at hexec hkept
  exact ⟨hexec, hkept, htakes⟩

theorem startHold_eq (q : Cue) : startHold q = if q.mode = .oneShot then min 255 (ceilDiv q.length 480) else 255 := by
  unfold startHold
  cases q.mode <;> rfl

/-- A press that is admitted outside FIRST_WINS takes the lowest FREE voice and leaves all others. -/
theorem pressTakes_admitted (h : Presses s n c) (hadm : Admitted s c.toNat q) (hg : s.groupMode q.group ≠ .firstWins)
    (hv : LowestFree s v) :
    ∃ t, Machine.exec (.playPress n) s = .next t ∧
      JustTaken (s.voice v) (t.voice v) s.startCounter c.toNat (.line n) .priming ∧ (t.voice v).claimed = .none ∧
      (∀ u, u ≠ v → Untouched (s.voice u) (t.voice u)) ∧
      t.startCounter = (s.startCounter + 1) % 65536 ∧ t.pointer = n.castSucc + 1 ∧
      t.outcomes = s.outcomes.set n.castSucc (some .played) ∧ t.lines = (s.setLine n (s.line n).pressed).lines ∧
      t.remote = [] ∧ t.groups = s.groups ∧ t.releasing = s.releasing ∧ t.owedEnd = s.owedEnd ∧ Kept s t ∧
      (s.mode ≠ .run ∨ q.group = 0 ∧ q.emit = 0 →
        (t.voice v).announce = .localOnly ∧ t.queue = s.queue ∧ t.flags = s.flags) ∧
      (s.mode = .run → q.group ≠ 0 ∨ q.emit ≠ 0 → s.hasRoom →
        (∀ e ∈ s.queue, e.frame.isEndOf ((s.voice v).generation.succ % 32 * 8 + v.val) = false) →
        (t.voice v).announce = .queued ∧ t.flags = s.flags ∧
          Placed s.queue t.queue
            (newEntry (startFrame q c.toNat ((s.voice v).generation.succ % 32 * 8 + v.val)) s.cfg.number)) := by
  have hadm' : Admitted (s.withPress n c.toNat) c.toNat q := hadm.congr
  obtain ⟨hexec, hkept, htakes⟩ := h.exec_takes hadm.record hadm.armed (hadm'.decideRequest false (.line n))
    ⟨hv.free, hv.lowest⟩ hg hadm.record h.requests.passes
  have hframe := htakes.frame
  have hlines := h.clearRequest_lines (congrArg State.lines hframe :)
  exact ⟨_, hexec, htakes.voice, htakes.claimed, htakes.others, (congrArg State.startCounter hframe :), (congrArg State.pointer hframe :),
    (congrArg State.outcomes hframe :), hlines, (congrArg State.remote hframe :).trans h.requests.remote,
    (congrArg State.groups hframe :), (congrArg State.releasing hframe :), (congrArg State.owedEnd hframe :), hkept, htakes.silent,
    htakes.queued⟩

/-! ## RESTART and LAST_WINS (R39, R40) -/

theorem Falls.of_mem {r : Rate} {l : List (Fin 8)} (h : Falls r l s t) {u : Fin 8} (hu : u ∈ l) :
    t.voice u = (s.voice u).runDown r ∧ u ∈ t.releasing := by
  obtain ⟨j, hj, hjl⟩ := h.releasing
  exact ⟨(h.voice u).trans (if_pos hu), hj ▸ List.mem_append_right _ ((hjl u).mpr hu)⟩

theorem Falls.of_not_mem {r : Rate} {l : List (Fin 8)} (h : Falls r l s t) {u : Fin 8} (hu : u ∉ l) : t.voice u = s.voice u :=
  (h.voice u).trans (if_neg hu)

theorem Falls.mem_releasing {r : Rate} {l : List (Fin 8)} (h : Falls r l s t) {u : Fin 8} (hu : u ∈ s.releasing) :
    u ∈ t.releasing := by
  obtain ⟨j, hj, -⟩ := h.releasing
  exact hj ▸ List.mem_append_left _ hu

/-- The voices that a RESTART cuts are no longer in the way of the group step (R39, R40). -/
theorem Falls.chokedBy {r : Rate} {l : List (Fin 8)} {m : Nat} (h : Falls r l s t) (hl : ∀ u, u ∈ l ↔ s.cutBy q m u) (u : Fin 8) :
    t.chokedBy q u ↔ ¬s.cutBy q m u ∧ s.chokedBy q u := by
  have hcfg : t.cfg = s.cfg := by rw [h.frame]
  have hcues : t.cues = s.cues := by rw [h.frame]
  have hmode : t.groupMode q.group = s.groupMode q.group := by
    unfold State.groupMode
    rw [hcfg]
  have hcue : ∀ w, t.cueOf w = s.cueOf w := fun w => by
    unfold State.cueOf State.present? State.record
    rw [hcues]
  unfold State.chokedBy
  rw [hmode, ← hl u]
  by_cases hu : u ∈ l
  · refine iff_of_false (fun hc => ?_) fun hc => hc.1 hu
    rw [(h.of_mem hu).1] at hc
    exact Bool.false_ne_true hc.2.2.1
  · rw [h.of_not_mem hu, hcue]
    exact (and_iff_right hu).symm

/-- From s to t steps 4 and 5 for cue m with fields q have cut the voices of a RESTART cue and choked those of its LAST_WINS group. -/
structure ReleasesFirst (s t : State) (q : Cue) (m : Nat) : Prop where
  frame : t = { s with voices := t.voices, releasing := t.releasing, choices := t.choices }
  cut : ∀ u, s.cutBy q m u → t.voice u = (s.voice u).runDown .cut ∧ u ∈ t.releasing
  choked : ∀ u, ¬s.cutBy q m u → s.chokedBy q u →
    t.voice u = (s.voice u).runDown (.fade (s.chokeFade q.group)) ∧ u ∈ t.releasing
  others : ∀ u, ¬s.cutBy q m u → ¬s.chokedBy q u → t.voice u = s.voice u

/-- Steps 4 and 5 release what is in the way of a RESTART or LAYER cue, and go on to step 6. -/
theorem State.stepRetrigger_releasesFirst {m : Nat} (src : Source) (hrec : s.record m = .present q)
    (hq : q.retrigger = .restart ∨ q.retrigger = .layer) (hfirst : s.groupMode q.group ≠ .firstWins)
    (hnone : q.group ≠ 0 → s.groupMode q.group = .none →
      ∀ u, (s.voice u).state.fresh = true → (s.cueOf (s.voice u)).group = q.group → s.cutBy q m u)
    (hfade : s.groupMode q.group = .lastWins → s.chokeFade q.group ≠ 0)
    (hsound : ∀ u, s.cutBy q m u ∨ s.chokedBy q u → (s.voice u).state = .sounding ∧ (s.voice u).level ≠ 0) :
    ∃ t, s.stepRetrigger m q src = t.stepVoice m src ∧ ReleasesFirst s t q m := by
  obtain ⟨lc, x, hstep, hx, hlc⟩ := State.stepRetrigger_cuts src hq fun u hu => hsound u (.inl hu)
  have hchoked := hx.chokedBy hlc
  have hrecord : ∀ k, x.record k = s.record k := fun k => by rw [hx.frame]; rfl
  have hmode : x.groupMode q.group = s.groupMode q.group := by rw [hx.frame]; rfl
  have hchokeFade : x.chokeFade q.group = s.chokeFade q.group := by rw [hx.frame]; rfl
  have hcue : ∀ w, x.cueOf w = s.cueOf w := fun w => by rw [hx.frame]; rfl
  have hleft : q.group ≠ 0 → x.groupMode q.group = .none →
      ∀ u, (x.voice u).state.fresh = true → (x.cueOf (x.voice u)).group ≠ q.group := fun hg hm u hu he => by
    by_cases hmem : u ∈ lc
    · rw [(hx.of_mem hmem).1] at hu
      exact Bool.false_ne_true hu
    · rw [hx.of_not_mem hmem] at hu he
      exact hmem ((hlc u).mpr (hnone hg (hmode ▸ hm) u hu (hcue _ ▸ he)))
  obtain ⟨lk, t, hgroup, ht, hlk⟩ := State.stepGroup_chokes src ((hrecord m).trans hrec) (by rw [hmode]; exact hfirst) hleft
    (by rw [hmode, hchokeFade]; exact hfade) fun u hu => by
      obtain ⟨hno, hyes⟩ := (hchoked u).mp hu
      rw [hx.of_not_mem fun hm => hno ((hlc u).mp hm)]
      exact hsound u (.inr hyes)
  rw [hchokeFade] at ht
  have hin : ∀ u, u ∈ lk ↔ ¬s.cutBy q m u ∧ s.chokedBy q u := fun u => (hlk u).trans (hchoked u)
  refine ⟨t, hstep.trans hgroup, by rw [ht.frame, hx.frame], fun u hc => ?_, fun u hc hk => ?_, fun u hc hk => ?_⟩
  · obtain ⟨hvoice, hmem⟩ := hx.of_mem ((hlc u).mpr hc)
    exact ⟨(ht.of_not_mem fun hm => ((hin u).mp hm).1 hc).trans hvoice, ht.mem_releasing hmem⟩
  · have hvoice := hx.of_not_mem fun hm => hc ((hlc u).mp hm)
    exact hvoice ▸ ht.of_mem ((hin u).mpr ⟨hc, hk⟩)
  · exact (ht.of_not_mem fun hm => hk ((hin u).mp hm).2).trans (hx.of_not_mem fun hm => hc ((hlc u).mp hm))

/-- The releases of steps 4 and 5 leave the FREE voices FREE and make none FREE. -/
theorem ReleasesFirst.free_iff {m : Nat} (h : ReleasesFirst s t q m) (u : Fin 8)
    (hsound : s.cutBy q m u ∨ s.chokedBy q u → (s.voice u).state = .sounding) :
    ((t.voice u).state = .free ↔ (s.voice u).state = .free) := by
  have hbusy : ∀ r, t.voice u = (s.voice u).runDown r → (s.voice u).state = .sounding →
      ((t.voice u).state = .free ↔ (s.voice u).state = .free) := fun r hr hs => by
    rw [hr, hs]
    exact iff_of_false nofun nofun
  by_cases hc : s.cutBy q m u
  · exact hbusy _ (h.cut u hc).1 (hsound (.inl hc))
  · by_cases hk : s.chokedBy q u
    · exact hbusy _ (h.choked u hc hk).1 (hsound (.inr hk))
    · rw [h.others u hc hk]

/-- Settles O28: an admitted press comes to step 6 as it is (`pressTakes_admitted`); a RESTART or LAST_WINS press after the releases of
steps 4 and 5 (`State.stepRetrigger_releasesFirst`). -/
theorem pressTakesTheLowestFreeVoice : Obligations.PressTakesTheLowestFreeVoice := by
  refine ⟨fun s n c q v h hadm hg hv => ?_, ?_⟩
  · have htakes := pressTakes_admitted h hadm hg hv
    unfold startFrame at htakes
    rw [startHold_eq, BitVec.ofNat_toNat, BitVec.setWidth_eq] at htakes
    exact htakes
  intro s n c q v fresh cut choke h hrec harm hv hq hfirst hnone hfade hsound
  have hfresh : ∀ u, (s.voice u).state.fresh = true ↔ fresh u := fun u => VoiceState.fresh_iff _
  have hcut : ∀ u, (s.withPress n c.toNat).cutBy q c.toNat u ↔ cut u :=
    fun u => and_congr_right fun _ => and_congr_left fun _ => hfresh u
  have hchoke : ∀ u, (s.withPress n c.toNat).chokedBy q u ↔ choke u := fun u =>
    and_congr_right fun _ => and_congr_right fun _ => and_congr_left fun _ => hfresh u
  have hopen := State.decideRequest_open (s := s.withPress n c.toNat) false (.line n) hrec harm fun hf => absurd hf hfirst
  obtain ⟨t, hstep, ht⟩ := State.stepRetrigger_releasesFirst (s := s.withPress n c.toNat) (m := c.toNat) (.line n) hrec hq hfirst
    (fun hg hm u hu he => (hcut u).mpr (hnone hg hm u ((hfresh u).mp hu) he)) hfade
    fun u hu => hsound u (hu.imp (hcut u).mp (hchoke u).mp)
  have hfree : ∀ u, (t.voice u).state = .free ↔ (s.voice u).state = .free := fun u =>
    ht.free_iff u fun hu => (hsound u (hu.imp (hcut u).mp (hchoke u).mp)).1
  have hnot : ¬fresh v := fun hf => by
    rcases hf with hf | hf <;> rw [hv.free] at hf <;> cases hf
  have hvoice : t.voice v = s.voice v := ht.others v (fun hc => hnot ((hcut v).mp hc).2.1) fun hc => hnot ((hchoke v).mp hc).2.2.1
  have hsame : t.cues = s.cues ∧ t.cfg = s.cfg ∧ t.passesDue = s.passesDue ∧ t.startCounter = s.startCounter ∧
      t.outcomes = s.outcomes := by
    rw [ht.frame]
    exact ⟨rfl, rfl, rfl, rfl, rfl⟩
  obtain ⟨hcues, hcfg, hpasses, hcounter, houtcomes⟩ := hsame
  obtain ⟨hexec, hkept, htakes⟩ := h.exec_takes hrec harm (hopen.trans hstep)
    ⟨(hfree v).mpr hv.free, fun u hu hf => hv.lowest u hu ((hfree u).mp hf)⟩ (by unfold State.groupMode; rw [hcfg]; exact hfirst)
    (by unfold State.record; rw [hcues]; exact hrec) (hpasses.trans h.requests.passes)
  have htaken := htakes.voice
  rw [hvoice, hcounter] at htaken
  have hframe := htakes.frame
  have hreleasing : ((t.take v c.toNat (.line n)).clearRequest n).releasing = t.releasing := (congrArg State.releasing hframe :)
  refine ⟨_, hexec, htaken, (congrArg State.outcomes hframe :).trans (by rw [houtcomes]), (congrArg State.pointer hframe :),
    (State.clearRequest_line n).trans (if_pos rfl), hkept, fun u hu => ?_⟩
  have hothers := htakes.others u hu
  rw [hreleasing]
  refine ⟨fun hc => ?_, fun hc hk => ?_, fun hc hk => ?_⟩
  · obtain ⟨hu, hmem⟩ := ht.cut u ((hcut u).mpr hc)
    exact ⟨hu ▸ hothers, hmem⟩
  · obtain ⟨hu, hmem⟩ := ht.choked u (hc ∘ (hcut u).mp) ((hchoke u).mpr hk)
    exact ⟨hu ▸ hothers, hmem⟩
  · exact ht.others u (hc ∘ (hcut u).mp) (hk ∘ (hchoke u).mp) ▸ hothers

/-! ## TOGGLE (R39) -/

/-- A SOUNDING voice above 0 of a cue with no tail falls at the cue's fade-out index where it is toggled. -/
theorem State.toggleVoice_falls {k : Nat} (hs : (s.voice v).state = .sounding) (hl : (s.voice v).level ≠ 0)
    (hcue : s.cueOf (s.voice v) = q) (hq : q.mode.tailEnd = none) (hk : q.fadeOut = k + 1) :
    s.toggleVoice v = s.falls v (.fade (k + 1)) := by
  have hqueued : s.claimQueued v = false := Bool.eq_false_iff.mpr fun h => by
    have hc := (State.claimQueued_iff.mp h).1
    rw [hs] at hc
    cases hc
  unfold State.toggleVoice State.releaseAsLine
  rw [hqueued, if_neg Bool.false_ne_true, hcue, Cue.lineRelease_of_no_tail hq, hk]
  exact State.releaseVoice_falls hs hl nofun nofun

/-- Settles O31: the request comes to step 4, whose visit makes the voices of the cue fall (`visitFrom_falls`). -/
theorem togglePressReleasesTheCue : Obligations.TogglePressReleasesTheCue := by
  intro s n c q k h hrec harm hopen hq htail hk ⟨u0, hu0⟩ hway
  have hsounding : ∀ w : VoiceState, w = .sounding → w.occupies = true ∧ w.fresh = true := by
    rintro w rfl
    exact ⟨rfl, rfl⟩
  generalize hp : s.withPress n c.toNat = p
  have hvoice : ∀ u, p.voice u = s.voice u := fun u => by rw [← hp]; rfl
  generalize hhit : (p.voicesOfCue c.toNat VoiceState.occupies).filter (fun v => p.toggles v) = hit
  have hmem : ∀ u, u ∈ hit ↔ (s.voice u).state = .sounding ∧ (s.voice u).cue = c.toNat := fun u => by
    rw [← hhit, List.mem_filter, State.mem_voicesOfCue, hvoice]
    refine ⟨fun ⟨⟨ho, hc⟩, _⟩ => ⟨(hway u ho hc).1, hc⟩, fun ⟨hs, hc⟩ => ⟨⟨(hsounding _ hs).1, hc⟩, ?_⟩⟩
    unfold State.toggles
    rw [hvoice, (hsounding _ hs).2]
    rfl
  have hlevel : ∀ u ∈ hit, (s.voice u).level ≠ 0 := fun u hu => by
    obtain ⟨hs, hc⟩ := (hmem u).mp hu
    exact (hway u (hsounding _ hs).1 hc).2
  have hcueOf : ∀ u ∈ hit, ∀ t : State, t.cues = p.cues → t.cueOf (s.voice u) = q := fun u hu t ht => by
    have hr : t.record c.toNat = .present q := by
      unfold State.record
      rw [ht, ← hp]
      exact hrec
    have hc : t.present? (s.voice u).cue = some q := by
      rw [((hmem u).mp hu).2]
      exact State.present?_of_record hr
    exact congrArg (·.getD Cue.blank) hc
  have hfalls : Falls (.fade (k + 1)) hit p (visit (fun v t => State.toggleVoice t v) hit p) := by
    refine visitFrom_falls _ (Nat.le_refl _) (hhit ▸ List.Nodup.filter _ (slots_filter_nodup _)) fun u hu t hcues _ ht => ?_
    rw [hvoice] at ht
    refine State.toggleVoice_falls ?_ ?_ (q := q) ?_ htail hk <;> rw [ht]
    · exact ((hmem u).mp hu).1
    · exact hlevel u hu
    · exact hcueOf u hu t hcues
  have hne : hit ≠ [] := fun he => List.not_mem_nil (he ▸ (hmem u0).mpr hu0)
  have hstep : p.stepRetrigger c.toNat q (.line n) =
      (visit (fun v t => State.toggleVoice t v) hit p).endRequest (.line n) .playedStop := by
    unfold State.stepRetrigger
    rw [if_neg fun he => (p.voicesOfCue_isEmpty c.toNat _).mp he u0 (by rw [hvoice]; exact (hsounding _ hu0.1).1)
      (by rw [hvoice]; exact hu0.2), hq]
    dsimp only
    rw [hhit, if_neg fun he => hne (List.isEmpty_iff.mp he)]
  generalize visit (fun v t => State.toggleVoice t v) hit p = x at hfalls hstep
  have hd := State.decideRequest_open (s := p) false (.line n) (by rw [← hp]; exact hrec) (by rw [← hp]; exact harm)
    (by rw [← hp]; exact hopen)
  subst hp
  have hserve := State.serveLine_of_leaves (s.request_withPress n c.toNat) (hd.trans hstep)
  have hframe := hfalls.frame
  have hlines := h.clearRequest_lines (t := x.recordOutcome (.line n) .playedStop) (congrArg State.lines hframe :)
  have hexec := h.exec_serveLine (by rw [State.groupOf_of_record hrec]; exact harm)
    (by rw [hserve]; exact (congrArg State.passesDue hframe).trans h.requests.passes)
  rw [hserve] at hexec
  refine ⟨_, hexec, fun u => ⟨fun hu => ?_, fun hu => ?_⟩, ?_, ?_⟩
  · rw [hk]
    exact hfalls.of_mem ((hmem u).mpr hu)
  · exact hfalls.of_not_mem fun hm => hu ((hmem u).mp hm)
  · obtain ⟨j, hj, -⟩ := hfalls.releasing
    exact ⟨j, hj⟩
  · have hend : (x.recordOutcome (.line n) .playedStop).clearRequest n =
        { x with
          lines := ((x.recordOutcome (.line n) .playedStop).clearRequest n).lines
          outcomes := x.outcomes.set n.castSucc (some .playedStop) } := rfl
    rw [hlines] at hend
    rw [hend, hframe]
    rfl

end Sys2Proof.Machine
end
section
/-! PROOF. A press that finds no FREE voice waits and starts one cut (PressWithoutAFreeVoiceSteals). -/

namespace Sys2Proof.Machine

set_option Elab.async false

variable {s t : State} {n v : Fin 8} {c : Byte} {q : Cue}

/-! ## The victim of a steal (R42, R50) -/

theorem older_iff (s : State) (a b : Fin 8) : older s a b = true ↔ Older s a b := by
  unfold older Older
  dsimp only
  generalize ((s.voice b).startSeq + 65536 - (s.voice a).startSeq) % 65536 = d
  split
  next h => rw [decide_eq_true_iff, Fin.val_fin_lt]; exact ⟨fun ha => .inr ⟨h, ha⟩, fun hd => hd.elim (fun hd => by omega) And.right⟩
  next h => rw [decide_eq_true_iff]; exact ⟨fun hd => .inl (by omega), fun hd => hd.elim (fun hd => by omega) fun hd => absurd hd.1 h⟩

/-- Voice a is a better victim than voice b (R42). -/
def BeatsAsVictim (s : State) (a b : Fin 8) : Prop :=
  s.priorityOf a < s.priorityOf b ∨ s.priorityOf a = s.priorityOf b ∧ Older s a b ∧ ¬Older s b a

theorem betterVictim_eq_or (s : State) (a b : Fin 8) : betterVictim s a b = a ∨ betterVictim s a b = b := by
  unfold betterVictim
  split
  · exact .inr rfl
  · split
    · exact .inr rfl
    · exact .inl rfl

theorem BeatsAsVictim.left {u : Fin 8} (h : BeatsAsVictim s v u) : betterVictim s v u = v := by
  unfold betterVictim
  rw [if_neg (by rcases h with h | h <;> omega), if_neg]
  rintro ⟨he, ho⟩
  rcases h with h | ⟨-, -, h⟩
  · omega
  · exact h ((older_iff s u v).mp ho)

theorem BeatsAsVictim.right {u : Fin 8} (h : BeatsAsVictim s v u) : betterVictim s u v = v := by
  unfold betterVictim
  rcases h with h | ⟨he, ho, -⟩
  · exact if_pos h
  · rw [if_neg (by omega)]
    exact if_pos ⟨he, (older_iff s v u).mpr ho⟩

theorem foldl_betterVictim (l : List (Fin 8)) (x : Fin 8) (hmem : v ∈ x :: l) (hbest : ∀ y ∈ x :: l, y ≠ v → BeatsAsVictim s v y) :
    l.foldl (betterVictim s) x = v := by
  induction l generalizing x with
  | nil => exact (List.mem_singleton.mp hmem).symm
  | cons y l ih =>
    rw [List.foldl_cons]
    refine ih _ ?_ fun z hz hne => ?_
    · by_cases hv : v ∈ l
      · exact List.mem_cons_of_mem _ hv
      · have hstep : betterVictim s x y = v := by
          by_cases hx : x = v
          · subst hx
            by_cases hy : y = x
            · subst hy
              exact (betterVictim_eq_or s y y).elim id id
            · exact (hbest y (by simp) hy).left
          · obtain rfl : v = y := by simpa [Ne.symm hx, hv] using hmem
            exact (hbest x (by simp) hx).right
        rw [hstep]
        exact List.mem_cons_self
    · rcases List.mem_cons.mp hz with hz | hz
      · rcases betterVictim_eq_or s x y with he | he <;> rw [hz, he] at hne ⊢
        · exact hbest x List.mem_cons_self hne
        · exact hbest y (List.mem_cons_of_mem x List.mem_cons_self) hne
      · exact hbest z (List.mem_cons_of_mem x (List.mem_cons_of_mem y hz)) hne

theorem IsVictim.victim {p : Nat} (h : IsVictim s p v) : victim s p = some v := by
  have hmem : v ∈ slots.filter fun u => (s.voice u).state.fresh && decide (s.priorityOf u < p) :=
    List.mem_filter.mpr ⟨mem_slots v, by rw [h.state]; exact decide_eq_true h.lower⟩
  have hall : ∀ y ∈ slots.filter (fun u => (s.voice u).state.fresh && decide (s.priorityOf u < p)), y ≠ v → BeatsAsVictim s v y :=
    fun y hy hne => by
      have hp := (List.mem_filter.mp hy).2
      rw [Bool.and_eq_true, decide_eq_true_iff] at hp
      exact h.best y hne hp.1 hp.2
  unfold Machine.victim
  split
  next he =>
    rw [he] at hmem
    cases hmem
  next x rest he =>
    rw [he] at hmem hall
    exact congrArg some (foldl_betterVictim rest x hmem hall)

theorem victim_eq_none {p : Nat} (h : ∀ u, (s.voice u).state.fresh = true → p ≤ s.priorityOf u) : victim s p = none := by
  have hnil : (slots.filter fun u => (s.voice u).state.fresh && decide (s.priorityOf u < p)) = [] := by
    rw [List.filter_eq_nil_iff]
    intro u _ hu
    rw [Bool.and_eq_true, decide_eq_true_iff] at hu
    exact absurd hu.2 (Nat.not_lt.mpr (h u hu.1))
  unfold Machine.victim
  rw [hnil]

/-! ## The cut that a waiting request starts (R42) -/

theorem State.cutInProgress_iff :
    s.cutInProgress = true ↔ ∃ u ∈ s.releasing, (s.voice u).state = .releasing ∧ (s.voice u).rate = some .cut := by
  simp [State.cutInProgress]

theorem State.stealFor_of_cut {p : Nat} (h : ∃ u ∈ s.releasing, (s.voice u).state = .releasing ∧ (s.voice u).rate = some .cut) :
    s.stealFor p = s := if_pos (State.cutInProgress_iff.mpr h)

/-- Without a cut in progress the voice longest in RELEASING is cut. -/
theorem State.stealFor_of_releasing {p : Nat} {rest : List (Fin 8)} (h : s.cutInProgress = false) (hl : s.releasing = v :: rest) :
    s.stealFor p = s.releaseVoice v .cut := by
  unfold State.stealFor
  rw [h, if_neg Bool.false_ne_true, hl]

/-- Without a voice in RELEASING the victim is cut, if there is one. -/
theorem State.stealFor_of_victim {p : Nat} (hl : s.releasing = []) :
    s.stealFor p = (victim s p).elim s fun v => s.releaseVoice v .cut := by
  have hcut : s.cutInProgress = false := by
    unfold State.cutInProgress
    rw [hl]
    rfl
  unfold State.stealFor
  rw [hcut, if_neg Bool.false_ne_true, hl]
  dsimp only
  cases victim s p <;> rfl

/-- A RELEASING voice above 0 that is not faster already goes on at CUT (R59). -/
theorem State.releaseVoice_cut_of_releasing (hs : (s.voice v).state = .releasing) (hl : (s.voice v).level ≠ 0)
    (hcut : (s.voice v).rate ≠ some .cut) (hzero : (s.voice v).rate ≠ some (.fade 0)) :
    s.releaseVoice v .cut = s.setVoice v ((s.voice v).runDown .cut) := by
  have hrank : Rate.cut.rank < ((s.voice v).rate.getD .tail).rank := by
    cases hrate : (s.voice v).rate with
    | none => decide
    | some r =>
      match r with
      | .fade 0 => exact absurd hrate hzero
      | .fade (k + 1) => exact Nat.succ_lt_succ (Nat.succ_pos k)
      | .cut => exact absurd hrate hcut
      | .tail => decide
  have hno : ¬(Rate.cut.rank = 0 ∨ (s.voice v).level = 0) := not_or.mpr ⟨nofun, hl⟩
  unfold State.releaseVoice
  dsimp only
  rw [hs]
  dsimp only
  rw [if_pos hrank, if_neg hno]

/-! ## Step 6 where no voice is FREE (R42, R43) -/

theorem State.stepVoice_expires {m : Nat} (src : Source) (h : ∀ u, (s.voice u).state ≠ .free) (he : s.cfg.expiry = 0) :
    s.stepVoice m src = (s.expireRequest src, .leaves) := by
  unfold State.stepVoice
  rw [State.lowestFree_eq_none h]
  exact if_pos he

theorem State.stepVoice_waits {m : Nat} (src : Source) (h : ∀ u, (s.voice u).state ≠ .free) (he : s.cfg.expiry ≠ 0)
    (hrec : s.record m = .present q) : s.stepVoice m src = (s.stealFor q.priority, .stays) := by
  unfold State.stepVoice
  rw [State.lowestFree_eq_none h, State.present?_of_record hrec]
  exact if_neg he

theorem AtMostLine.of_eases (h : AtMostLine s n) (k : Eases s t) : AtMostLine t n :=
  ⟨fun m hm => (k.request m).elim (·.trans (h.others m hm)) id, List.suffix_nil.mp (h.remote ▸ k.remote)⟩

theorem State.passesFrom_of_none (k : Nat) (h : s.passesDue = 0) : State.passesFrom k s = s := by
  cases k with
  | zero => rfl
  | succ k => exact if_pos h

theorem State.passesFrom_of_one (k : Nat) (h : s.passesDue = 1) :
    State.passesFrom (k + 1) s = State.passesFrom k { s with passesDue := 0 }.servePass := by
  unfold State.passesFrom
  rw [if_neg (by omega), h]
  cases k <;> rfl

/-- A pass over the request of one line that owes another pass: both are run. -/
theorem AtMostLine.runPass_twice (h : AtMostLine s n) (hp : s.passesDue = 0) (ht : s.serveLine n = { t with passesDue := 1 })
    (hz : t.passesDue = 0) (htwice : (t.serveLine n).passesDue = 0) : s.runPass = t.serveLine n := by
  have hline := h.of_eases ((Eases.refl s).serveLine n)
  have hfirst : s.servePass = { t with passesDue := 1 } := (h.servePass hline).trans ht
  rw [ht] at hline
  have hone : AtMostLine t n := ⟨hline.others, hline.remote⟩
  have hsecond : t.servePass = t.serveLine n := hone.servePass (hone.of_eases ((Eases.refl t).serveLine n))
  have hs : { { s with passesDue := 1 } with passesDue := 0 } = s := State.unowed hp
  have hu : { { t with passesDue := 1 } with passesDue := 0 } = t := State.unowed hz
  have htwo := State.passesFrom_of_one (s := { s with passesDue := 1 }) 63 rfl
  rw [hs, hfirst, State.passesFrom_of_one 62 rfl, hu, hsecond, State.passesFrom_of_none 62 htwice] at htwo
  unfold State.runPass
  rw [hp]
  exact htwo

/-! ## The press -/

/-- With a pending expiry time of 0 the request of a press that finds no FREE voice ends EXPIRED at once (R43). -/
theorem Presses.exec_expires (h : Presses s n c) (hadm : Admitted s c.toNat q) (hfree : ∀ u, (s.voice u).state ≠ .free)
    (he : s.cfg.expiry = 0) :
    Machine.exec (.playPress n) s =
      .next ({ s.setLine n (s.line n).pressed with outcomes := s.outcomes.set n.castSucc (some .expired) }.latch .expired) := by
  have hadm' : Admitted (s.withPress n c.toNat) c.toNat q := hadm.congr
  have hstep := State.stepVoice_expires (s := s.withPress n c.toNat) (m := c.toNat) (.line n) hfree he
  have hserve := State.serveLine_of_leaves (s.request_withPress n c.toNat) ((hadm'.decideRequest false (.line n)).trans hstep)
  have hlines := h.clearRequest_lines (t := (s.withPress n c.toNat).expireRequest (.line n)) rfl
  have hexec := h.exec_serveLine (by rw [State.groupOf_of_record hadm.record]; exact hadm.armed)
    (by rw [hserve]; exact h.requests.passes)
  have hend : ((s.withPress n c.toNat).expireRequest (.line n)).clearRequest n =
      { { s with outcomes := s.outcomes.set n.castSucc (some .expired) }.latch .expired with
        lines := (((s.withPress n c.toNat).expireRequest (.line n)).clearRequest n).lines } := rfl
  rw [hexec, hserve, hend, hlines]
  rfl

/-- The request of a press that waits at step 6 starts what cut it can, and is pending. -/
theorem Presses.exec_waits (h : Presses s n c) (hadm : Admitted s c.toNat q) (hfree : ∀ u, (s.voice u).state ≠ .free)
    (he : s.cfg.expiry ≠ 0) (ht : (s.withPress n c.toNat).stealFor q.priority = t) (hp : t.passesDue = 0) :
    Machine.exec (.playPress n) s = .next t := by
  have hadm' : Admitted (s.withPress n c.toNat) c.toNat q := hadm.congr
  have hstep := State.stepVoice_waits (s := s.withPress n c.toNat) (.line n) hfree he hadm.record
  have hserve := State.serveLine_of_stays (s.request_withPress n c.toNat) ((hadm'.decideRequest false (.line n)).trans hstep)
  rw [ht] at hserve
  rw [h.exec_serveLine (by rw [State.groupOf_of_record hadm.record]; exact hadm.armed) (by rw [hserve]; exact hp), hserve]

/-- Where a voice that is neither of the cue nor of its group enters FREE a request stays admitted, and where no other is FREE it is the
lowest FREE voice. -/
theorem Admitted.freedLeft {m : Nat} (h : Admitted s m q) (hv : (s.voice v).state ≠ .claiming) : Admitted (s.freedLeft v) m q := by
  have hframe := (s.freedLeft_announces v).frame
  rw [State.withFreed_of_not_claiming hv] at hframe
  obtain ⟨hgroups, -⟩ := State.freedLeft_leaves hv
  have hview : ∀ i, ((s.freedLeft v).groups.get i).armed = (s.groups.get i).armed ∧
      ((s.freedLeft v).groups.get i).holder = (s.groups.get i).holder := fun i => by
    rw [hgroups]
    split <;> exact ⟨rfl, rfl⟩
  refine h.transfer (fun u hu => .inl ?_) (congrArg State.cues hframe :) (congrArg State.mode hframe :) (congrArg State.cfg hframe :)
    (fun g => ?_) fun g => ?_
  · obtain ⟨hfreed, hother⟩ := s.freedLeft_voice u v
    by_cases hvu : v = u
    · rw [hfreed hvu] at hu
      exact absurd hu Bool.false_ne_true
    · rw [(hother hvu).rest] at hu ⊢
      exact ⟨hu, rfl⟩
  · unfold State.armed
    split
    · exact (hview _).1
    · rfl
  · unfold State.holder
    split
    · exact (hview _).2
    · rfl

theorem LowestFree.freedLeft (hfree : ∀ u, (s.voice u).state ≠ .free) : LowestFree (s.freedLeft v) v := by
  refine ⟨by rw [(s.freedLeft_voice v v).1 rfl]; rfl, fun u hu hf => hfree u ?_⟩
  rwa [((s.freedLeft_voice u v).2 hu.ne').untouched.state] at hf

/-- A PRIMING victim enters FREE, and the pass of its freeing gives its slot to the request (R42, R57). -/
theorem Presses.exec_takesVictim (h : Presses s n c) (hadm : Admitted s c.toNat q) (hfree : ∀ u, (s.voice u).state ≠ .free)
    (he : s.cfg.expiry ≠ 0) (hsteal : (s.withPress n c.toNat).stealFor q.priority = (s.withPress n c.toNat).freeVoice v)
    (hv : (s.voice v).state = .priming) (hg : s.groupMode q.group ≠ .firstWins) :
    ∃ t, Machine.exec (.playPress n) s = .next t ∧
      JustTaken (s.voice v) (t.voice v) s.startCounter c.toNat (.line n) .priming ∧
      t.outcomes = s.outcomes.set n.castSucc (some .played) ∧ (t.line n).request = none := by
  have hadm' : Admitted (s.withPress n c.toNat) c.toNat q := hadm.congr
  have hclaim : ((s.withPress n c.toNat).voice v).state ≠ .claiming := fun hc => nomatch hv.symm.trans hc
  have hstep := State.stepVoice_waits (s := s.withPress n c.toNat) (.line n) hfree he hadm.record
  have hserve := State.serveLine_of_stays (s.request_withPress n c.toNat) ((hadm'.decideRequest false (.line n)).trans hstep)
  have hone := h.requests.atMostLine n { (s.line n).pressed with request := some { cue := c.toNat, latched := false, age := 0 } }
  have hadmz := hadm'.freedLeft hclaim
  have hlowest : LowestFree ((s.withPress n c.toNat).freedLeft v) v := LowestFree.freedLeft hfree
  have hgeneration : (((s.withPress n c.toNat).freedLeft v).voice v).generation = (s.voice v).generation := by
    rw [((s.withPress n c.toNat).freedLeft_voice v v).1 rfl]
    rfl
  have hframe := ((s.withPress n c.toNat).freedLeft_announces v).frame
  rw [State.withFreed_of_not_claiming hclaim] at hframe
  rw [hsteal, State.freeVoice_eq] at hserve
  have hreq := s.request_withPress n c.toNat
  generalize (s.withPress n c.toNat).freedLeft v = z at hserve hadmz hlowest hgeneration hframe
  have hlines : z.lines = (s.withPress n c.toNat).lines := (congrArg State.lines hframe :)
  have hline : z.line n = (s.withPress n c.toNat).line n := congrArg (fun l => Table.get l n) hlines
  have hcounter : z.startCounter = s.startCounter := (congrArg State.startCounter hframe :)
  have houtcomes : z.outcomes = s.outcomes := (congrArg State.outcomes hframe :)
  have hgroupMode : z.groupMode q.group = s.groupMode q.group := (congrArg (fun t => t.groupMode q.group) hframe :)
  have hpasses : z.passesDue = 0 := (congrArg State.passesDue hframe :).trans h.requests.passes
  have htakes : Takes z (z.take v c.toNat (.line n)) v c.toNat q (.line n) n.castSucc :=
    State.take_takes hadmz.record (by rwa [hgroupMode]) rfl
  have hserved := State.serveLine_of_leaves (hline ▸ hreq) ((hadmz.decideRequest false (.line n)).trans (hlowest.stepVoice _ _))
  have hdue : (s.withPress n c.toNat).passesDue = 0 := h.requests.passes
  rw [hdue] at hserve
  have hrun := hone.runPass_twice hdue hserve hpasses
    (by rw [hserved]; exact (congrArg State.passesDue htakes.frame :).trans hpasses)
  have hexec := h.exec (by rw [State.groupOf_of_record hadm.record]; exact hadm.armed)
  rw [show (s.withPress n c.toNat).runPass = z.serveLine n from hrun, hserved] at hexec
  refine ⟨_, hexec, ?_, ?_, (State.clearRequest_line n).trans (if_pos rfl)⟩
  · have htaken := htakes.voice
    rw [hcounter] at htaken
    exact { htaken with generation := by rw [← hgeneration]; exact htaken.generation }
  · exact (congrArg State.outcomes htakes.frame :).trans (by rw [houtcomes])

/-- Settles O32: step 6 finds no FREE voice, and its cut is that of `State.stealFor`, by what is RELEASING and by the victim. -/
theorem pressWithoutAFreeVoiceSteals : Obligations.PressWithoutAFreeVoiceSteals := by
  intro s n c q h hadm hfree base waits noCut
  have hpasses : waits.passesDue = 0 := h.requests.passes
  have hcut : ¬noCut ↔ ∃ u ∈ s.releasing, (s.voice u).state = .releasing ∧ (s.voice u).rate = some .cut := by
    simp only [noCut, not_forall, not_not, exists_prop]
  have hnocut : noCut → waits.cutInProgress = false := fun hno => Bool.eq_false_iff.mpr fun hc =>
    hcut.mpr (State.cutInProgress_iff.mp hc) hno
  refine ⟨fun he => ?_, fun he hyes => ?_, fun he hno v rest hl hs hlevel hrate => ?_, fun he hl hnone => ?_, fun he hl v hv => ?_⟩
  · exact h.exec_expires hadm hfree he
  · exact h.exec_waits hadm hfree he (State.stealFor_of_cut (s := waits) (hcut.mp hyes)) hpasses
  · have hmem : v ∈ s.releasing := hl ▸ List.mem_cons_self
    have hsteal := State.stealFor_of_releasing (s := waits) (p := q.priority) (hnocut hno) hl
    rw [State.releaseVoice_cut_of_releasing (s := waits) hs hlevel (hno v hmem hs) hrate] at hsteal
    have hrun : (waits.voice v).runDown .cut = { s.voice v with rate := some .cut, target := 0, vCount := 0, vDone := false } :=
      congrArg (fun x => { s.voice v with state := x, rate := some .cut, target := 0, vCount := 0, vDone := false }) hs.symm
    rw [hrun] at hsteal
    exact h.exec_waits hadm hfree he hsteal hpasses
  · have hsteal := State.stealFor_of_victim (s := waits) (p := q.priority) hl
    rw [victim_eq_none (s := waits) hnone] at hsteal
    exact h.exec_waits hadm hfree he hsteal hpasses
  · have hsteal := State.stealFor_of_victim (s := waits) (p := q.priority) hl
    have hvictim : IsVictim waits q.priority v := ⟨hv.state, hv.lower, hv.best⟩
    rw [hvictim.victim] at hsteal
    refine ⟨fun hs hlevel => ?_, fun hs hg => ?_⟩
    · refine h.exec_waits hadm hfree he (hsteal.trans ((State.releaseVoice_falls (s := waits) (r := .cut) hs hlevel nofun nofun).trans ?_)) hpasses
      have hjoin : waits.falls v .cut = { waits.falls v .cut with releasing := s.releasing ++ [v] } := rfl
      rw [hjoin, hl]
      rfl
    · refine h.exec_takesVictim hadm hfree he (hsteal.trans ?_) hs hg
      change (s.withPress n c.toNat).releaseVoice v .cut = _
      have hs' : ((s.withPress n c.toNat).voice v).state = .priming := hs
      unfold State.releaseVoice
      dsimp only
      rw [hs']

end Sys2Proof.Machine
end
section
/-! PROOF. The remote queue: its head is decided in a pass (RipeRequestsExpire). -/

namespace Sys2Proof.Machine

set_option Elab.async false

variable {s t : State} {v : Fin 8} {q : Cue} {x : RemoteEntry} {rest : List RemoteEntry}

/-! ## A pass over the remote queue (R36) -/

/-- No line has a request, and no pass is owed. -/
structure OnlyRemote (s : State) : Prop where
  lines : ∀ n, (s.line n).request = none
  passes : s.passesDue = 0

theorem servePlace_of_lines (h : ∀ n, (s.line n).request = none) {p : Fin 9} (hp : p ≠ 8) : s.servePlace p = s := by
  induction p using Fin.lastCases with
  | last => exact absurd rfl hp
  | cast m =>
    rw [State.servePlace_castSucc]
    exact State.serveLine_of_none (h m)

/-- Where no line has a request, the pass of an event decides the remote queue alone. -/
theorem OnlyRemote.runPass (h : OnlyRemote s) (ht : State.serveRemote 4 s = t) (hp : t.passesDue = 0) : s.runPass = t := by
  have hserve : s.servePlace 8 = t := ht
  have hlines : ∀ n, (t.line n).request = none := fun n =>
    ((ht ▸ (Eases.refl s).serveRemote 4).request n).elim (·.trans (h.lines n)) id
  obtain ⟨hnodup, hmem⟩ := s.servingOrder_nodup 8
  have hpass : s.servePass = t := by
    have hone := inOrder_eq_one (f := fun p t => State.servePlace t p) hnodup hmem (fun p hp => servePlace_of_lines h.lines hp)
      fun p hp => by
        rw [hserve]
        exact servePlace_of_lines hlines hp
    exact hone.trans hserve
  rw [State.runPass_eq h.passes (by rw [hpass]; exact hp), hpass]

theorem State.serveRemote_of_leaves (k : Nat) (hr : s.remote = [x]) (hd : s.decideRequest x.cue false .remote = (t, .leaves))
    (ht : t.remote = s.remote) : State.serveRemote (k + 1) s = { t with remote := [] } := by
  have hrest : State.serveRemote k { t with remote := [] } = { t with remote := [] } := by
    cases k <;> rfl
  unfold State.serveRemote
  rw [hr]
  dsimp only
  rw [hd]
  dsimp only
  rw [ht, hr]
  exact hrest

theorem State.serveRemote_of_stays (k : Nat) (hr : s.remote = x :: rest) (hd : s.decideRequest x.cue false .remote = (t, .stays)) :
    State.serveRemote (k + 1) s = t := by
  unfold State.serveRemote
  rw [hr]
  dsimp only
  rw [hd]

/-- The only remote request is for a cue that is not PRESENT: it ends REFUSED (R37). -/
theorem OnlyRemote.runPass_refused (h : OnlyRemote s) (hr : s.remote = [x]) (habsent : ∀ q, s.record x.cue ≠ .present q) :
    s.runPass = { s with remote := [], outcomes := s.outcomes.set 8 (some .refused) } :=
  h.runPass (State.serveRemote_of_leaves 3 hr (State.decideRequest_absent false .remote habsent) rfl) h.passes

/-- The only remote request is admitted: it takes the lowest FREE voice (R41). -/
theorem OnlyRemote.runPass_takes (h : OnlyRemote s) (hr : s.remote = [x]) (hadm : Admitted s x.cue q)
    (hg : s.groupMode q.group ≠ .firstWins) (hv : LowestFree s v) :
    ∃ t, s.runPass = { t with remote := [] } ∧ Takes s t v x.cue q .remote 8 := by
  have htakes : Takes s (s.take v x.cue .remote) v x.cue q .remote 8 := State.take_takes hadm.record hg rfl
  have hframe := htakes.frame
  have hd := (hadm.decideRequest false .remote).trans (hv.stepVoice x.cue .remote)
  generalize s.take v x.cue .remote = t at htakes hframe hd
  exact ⟨t, h.runPass (State.serveRemote_of_leaves 3 hr hd (congrArg State.remote hframe :))
    ((congrArg State.passesDue hframe :).trans h.passes), htakes⟩

/-- The head of the remote queue is admitted, but finds every voice in use and a cut in progress: it stays (R42). -/
theorem OnlyRemote.runPass_waits (h : OnlyRemote s) (hr : s.remote = x :: rest) (hadm : Admitted s x.cue q)
    (hfree : ∀ u, (s.voice u).state ≠ .free) (he : s.cfg.expiry ≠ 0)
    (hcut : ∃ u ∈ s.releasing, (s.voice u).state = .releasing ∧ (s.voice u).rate = some .cut) : s.runPass = s := by
  have hstep := State.stepVoice_waits .remote hfree he hadm.record
  rw [State.stealFor_of_cut hcut] at hstep
  exact h.runPass (State.serveRemote_of_stays 3 hr ((hadm.decideRequest false .remote).trans hstep)) h.passes

/-! ## REQUEST_EXPIRY (R34) -/

/-- When REQUEST_EXPIRY finds an age to have reached the expiry time (R34, R44; log entry 37). -/
theorem State.ripe_ageAtExpiry_iff {aging : Bool} {P : Prop} (hP : aging = true ↔ P) (age : Nat) :
    s.ripe (s.ageAtExpiry aging age) = true ↔
      s.cfg.expiry ≠ 0 ∧
        (s.cfg.expiry ≤ age ∨ P ∧ s.mode ≠ .loading ∧ s.tmb.samples = 47 ∧ s.cfg.expiry ≤ age + 1) := by
  have hnext : s.tmb.boundaryNext = true ↔ s.tmb.samples = 47 := by
    unfold Timebase.boundaryNext Config.samplesPerBlock
    rw [decide_eq_true_iff]
    omega
  have hcond : (aging && !s.isLoading && s.tmb.boundaryNext) = true ↔ P ∧ s.mode ≠ .loading ∧ s.tmb.samples = 47 := by
    rw [Bool.and_eq_true, Bool.and_eq_true, hP, hnext, and_assoc, State.isLoading, Bool.not_eq_true', decide_eq_false_iff_not]
  unfold State.ripe State.ageAtExpiry
  rw [Bool.and_eq_true, decide_eq_true_iff, decide_eq_true_iff]
  refine and_congr_right fun _ => ?_
  by_cases hc : (aging && !s.isLoading && s.tmb.boundaryNext) = true
  · rw [if_pos hc]
    obtain ⟨ha, hm, hs⟩ := hcond.mp hc
    exact ⟨fun h => .inr ⟨ha, hm, hs, h⟩, fun h => h.elim (fun h => by omega) fun h => h.2.2.2⟩
  · rw [if_neg hc]
    exact ⟨.inl, fun h => h.elim id fun ⟨ha, hm, hs, _⟩ => absurd (hcond.mpr ⟨ha, hm, hs⟩) hc⟩

theorem State.ages_iff (r : Request) : s.ages r = true ↔ r.latched = false ∨ s.armed (s.groupOf r.cue) = true := by
  unfold State.ages
  rw [Bool.or_eq_true, Bool.not_eq_true']

/-- The station with its remote request at place i EXPIRED, before any pass. -/
def State.remoteExpired (s : State) (i : Nat) : State :=
  { s with remote := s.remote.eraseIdx i, outcomes := s.outcomes.set 8 (some .expired) }.latch .expired

theorem State.expireRemote_of_ripe {ripe : RemoteEntry → Bool} {i : Nat} {r : RemoteEntry} (hr : s.remote[i]? = some r)
    (h : ripe r = true) :
    s.expireRemote ripe i =
      if i = 0 ∧ s.remote.eraseIdx i ≠ [] then (s.remoteExpired i).runPass else s.remoteExpired i := by
  unfold State.expireRemote
  rw [hr]
  exact if_pos h

theorem State.expireRemote_of_not_ripe {ripe : RemoteEntry → Bool} {i : Nat} {r : RemoteEntry} (hr : s.remote[i]? = some r)
    (h : ¬ripe r = true) : s.expireRemote ripe i = s := by
  unfold State.expireRemote
  rw [hr]
  exact if_neg h

theorem State.remoteExpired_eases (s : State) (i : Nat) (h : s.remote.eraseIdx i <:+ s.remote) : Eases s (s.remoteExpired i) :=
  Eases.latch (s := s) (t := { s with remote := s.remote.eraseIdx i, outcomes := s.outcomes.set 8 (some .expired) })
    { Eases.of_same (s := s) (t := { s with outcomes := s.outcomes.set 8 (some .expired) }) with remote := h } .expired

theorem outcomes_set_set {n : Nat} {α : Type} (t : Table n α) (i : Fin n) (a b : α) : (t.set i a).set i b = t.set i b := by
  apply Table.ext_get
  intro j
  rw [Table.get_set, Table.get_set, Table.get_set]
  split <;> rfl

/-- Settles O36: the tests of R34 (`State.ripe_ageAtExpiry_iff`), and the pass that decides a new remote head. -/
theorem ripeRequestsExpire : Obligations.RipeRequestsExpire := by
  intro s due
  refine ⟨?_, ?_, ?_⟩
  · intro n r hr aging
    have hexec : exec (.requestExpiry (.line n)) s =
        .next (if s.ripe (s.ageAtExpiry (s.ages r) r.age) then (s.expireRequest (.line n)).clearRequest n else s) := by
      change Host.Outcome.next (s.expireLine _ n) = _
      unfold State.expireLine
      rw [hr]
    have hripe := s.ripe_ageAtExpiry_iff (s.ages_iff r) r.age
    rw [hexec]
    exact ⟨fun h => congrArg _ ((if_pos (hripe.mpr h)).trans rfl), fun h => congrArg _ (if_neg (h ∘ hripe.mp))⟩
  · intro i r hr
    have hexec : exec (.requestExpiry (.remote i)) s =
        .next (s.expireRemote (fun r => s.ripe (s.ageAtExpiry true r.age)) i.val) := rfl
    have hripe : s.ripe (s.ageAtExpiry true r.age) = true ↔ due True r.age := s.ripe_ageAtExpiry_iff (iff_of_true rfl trivial) r.age
    rw [hexec]
    refine ⟨fun h hplace => ?_, fun h hi => ?_, fun h => ?_⟩
    · rw [State.expireRemote_of_ripe hr (hripe.mpr h), if_neg]
      · rfl
      rintro ⟨hi, hne⟩
      obtain ⟨y, hy⟩ := List.length_eq_one_iff.mp (hplace.resolve_left (· hi))
      rw [hi, hy] at hne
      exact hne rfl
    · have htail : s.remote.eraseIdx i.val = s.remote.tail := by rw [hi, List.eraseIdx_zero]
      have heases : Eases s (s.remoteExpired i.val) := s.remoteExpired_eases _ (htail ▸ List.tail_suffix _)
      have hremote : (s.remoteExpired i.val).remote = s.remote.tail := htail
      have hflag : (s.remoteExpired i.val).flag .expired = true := State.flag_latch_self _ _
      have hkept : Kept s (s.remoteExpired i.val) := (Kept.refl s).trans
        ⟨rfl, rfl, rfl, rfl, rfl, rfl, rfl, rfl, rfl, rfl, rfl, rfl, rfl, rfl, rfl, rfl, rfl, rfl, rfl⟩
      have hpass := (Eases.refl (s.remoteExpired i.val)).runPass
      rw [State.expireRemote_of_ripe hr (hripe.mpr h)]
      refine ⟨_, rfl, ?_⟩
      split
      · exact ⟨hremote ▸ hpass.remote, hpass.flag _ hflag, (kept_stable s).runPass hkept⟩
      · exact ⟨hremote ▸ List.suffix_refl _, hflag, hkept⟩
    · rw [State.expireRemote_of_not_ripe hr (h ∘ hripe.mp)]
  · intro r x rest hr hdue hlines hpasses left
    have hripe : s.ripe (s.ageAtExpiry true r.age) = true :=
      (s.ripe_ageAtExpiry_iff (iff_of_true rfl trivial) r.age).mpr hdue
    have hexec : exec (.requestExpiry (.remote 0)) s = .next (left (x :: rest) .expired).runPass := by
      change Host.Outcome.next (s.expireRemote (fun r => s.ripe (s.ageAtExpiry true r.age)) 0) = _
      have herase : s.remote.eraseIdx 0 = x :: rest := by rw [hr]; rfl
      have hstate : s.remoteExpired 0 = left (x :: rest) .expired := by
        unfold State.remoteExpired
        rw [herase]
      rw [State.expireRemote_of_ripe (r := r) (by rw [hr]; rfl) hripe, herase, if_pos ⟨rfl, List.cons_ne_nil _ _⟩, hstate]
    have honly : OnlyRemote (left (x :: rest) .expired) := ⟨hlines, hpasses⟩
    rw [hexec]
    refine ⟨fun hrest habsent => ?_, fun q hadm => ⟨fun v hrest hg hv => ?_, fun hfree hcut => ?_⟩⟩
    · subst hrest
      have hset : (left [x] .expired).outcomes.set 8 (some .refused) = s.outcomes.set 8 (some .refused) :=
        outcomes_set_set s.outcomes 8 _ _
      rw [honly.runPass_refused rfl habsent, hset]
      rfl
    · subst hrest
      have hadm' : Admitted (left [x] .expired) x.cue q := hadm.congr
      obtain ⟨t, ht, htakes⟩ := honly.runPass_takes rfl hadm' hg ⟨hv.free, hv.lowest⟩
      have hflag : (left [x] .expired).flag .expired = true := State.flag_latch_self _ _
      rw [ht]
      refine ⟨_, rfl, rfl, htakes.voice, ?_, (congrArg State.pointer htakes.frame :), htakes.eases.flag _ hflag, htakes.others⟩
      exact (congrArg State.outcomes htakes.frame :).trans (outcomes_set_set s.outcomes 8 _ _)
    · have hadm' : Admitted (left (x :: rest) .expired) x.cue q := hadm.congr
      rw [honly.runPass_waits rfl hadm' hfree hdue.1 hcut]

end Sys2Proof.Machine
end
section
/-! PROOF. A frame completes, the station's own or another's (R141 to R143); FIRE (FireMakesARemoteRequest) and RELEASE
(ReleaseFreesTheGroup). -/

namespace Sys2Proof.Machine

set_option Elab.async false

variable {s t base : State} {sender : Sender} {f : Frame}

/-! ## A frame completes (R141 to R143) -/

theorem State.flightDone_eq_sent (s : State) (heard : Bool) : s.flightDone heard = s.sent heard := by
  cases heard <;> rfl

theorem State.countFrame_eq_counted (s : State) : s.countFrame = s.counted := by
  have h : s.echoes = decide (s.mode = .joining ∨ s.mode = .run) := by
    unfold State.echoes
    rw [Bool.decide_or]
  unfold State.countFrame
  rw [h]
  rfl

/-- What the owners do of a completed frame of a sender (R142). -/
def State.applyFrom (s : State) : Sender → Frame → State
  | .own _, f => s.applyOwn f
  | .other source, f => s.applyForeign source.toNat f

theorem Completes.completeFrame (h : Completes s sender f base) : s.completeFrame sender f = base.applyFrom sender f := by
  cases sender with
  | own heard =>
    obtain ⟨⟨e, hfly, rfl⟩, rfl⟩ := h
    change s.completeOwn heard (fun x => x == e.frame) = _
    unfold State.completeOwn
    rw [hfly]
    dsimp only
    rw [if_pos (beq_self_eq_true e.frame), State.flightDone_eq_sent]
    rfl
  | other source =>
    obtain ⟨⟨hmode, hfly, hrx, hzero, hlast, hother⟩, rfl⟩ := h
    change s.receiveFrame source (some f) = _
    have hreceive : s.canReceive = true := by
      simp [State.canReceive, State.isLoading, State.isFlying, hmode, hfly, hrx]
    have hnone : isNoStation source = false := by
      simp [isNoStation, hzero, hlast]
    have hown : s.ownNumber source = false := by
      simp [State.ownNumber, hother]
    unfold State.receiveFrame
    rw [hreceive, hown, hnone, State.countFrame_eq_counted]
    rfl

/-- A frame that completes changes the wire, the queue and the flags before its owners act. -/
theorem Completes.frame (h : Completes s sender f base) :
    base =
      { s with
        queue := base.queue
        tx := base.tx
        rx := base.rx
        idleCount := base.idleCount
        echoed := base.echoed
        received := base.received
        flags := base.flags } := by
  cases sender with
  | own heard =>
    obtain ⟨-, rfl⟩ := h
    cases heard <;> rfl
  | other source =>
    obtain ⟨-, rfl⟩ := h
    rfl

/-- No entry is in flight where a frame has completed (R131, R141). -/
theorem Completes.waits (h : Completes s sender f base) (hw : WireLaw s) : ∀ e ∈ base.queue, e.inFlight = false := by
  cases sender with
  | own heard =>
    obtain ⟨-, rfl⟩ := h
    rw [← State.flightDone_eq_sent]
    exact flightDone_waits s heard
  | other source =>
    obtain ⟨hears, rfl⟩ := h
    exact hw (by rw [hears.rx]; exact nofun)

section
variable (h : Completes s sender f base)
include h

theorem Completes.voice (v : Fin 8) : base.voice v = s.voice v := (congrArg (fun t => State.voice t v) h.frame :)

theorem Completes.line (n : Fin 8) : base.line n = s.line n := (congrArg (fun t => State.line t n) h.frame :)

theorem Completes.cfg : base.cfg = s.cfg := (congrArg State.cfg h.frame :)

theorem Completes.groups : base.groups = s.groups := (congrArg State.groups h.frame :)

theorem Completes.requests (hn : NoRequests s) : NoRequests base := by
  rw [h.frame]
  exact ⟨hn.lines, hn.remote, hn.passes⟩

theorem Completes.admitted {c : Nat} {q : Cue} (ha : Admitted s c q) : Admitted base c q := by
  rw [h.frame]
  exact ha.congr

theorem Completes.addressed_iff (target : Byte) : base.addressed target = true ↔ s.isTarget target := by
  unfold State.addressed State.isTarget
  rw [h.cfg, Bool.or_eq_true, beq_iff_eq, beq_iff_eq]

end

/-! ## FIRE (R33) -/

theorem Completes.exec_fire {target c : Byte} (h : Completes s sender (.fire target c) base) :
    exec (.fire sender target c) s =
      .next (if base.addressed target then base.fireCue (s.senderNumber sender) c.toNat else base) := by
  have hnumber : base.cfg.number = s.cfg.number := by rw [h.cfg]
  have hcomplete := h.completeFrame
  change Host.Outcome.next (s.completeFrame sender (.fire target c)) = _
  rw [hcomplete]
  cases sender with
  | own heard =>
    change Host.Outcome.next (base.fireFrame base.cfg.number target c) = _
    rw [hnumber]
    rfl
  | other source => rfl

/-- Settles O57: the tests of R33, and the pass over the remote queue that the new request is alone in. -/
theorem fireMakesARemoteRequest : Obligations.FireMakesARemoteRequest := by
  intro s base sender target c h known
  have hremote : base.remote = s.remote := (congrArg State.remote h.frame :)
  have htarget := h.addressed_iff target
  have hknown : (base.remote.any fun r => r.source == s.senderNumber sender && r.cue == c.toNat) = true ↔ known := by
    simp [known, hremote]
  rw [h.exec_fire]
  refine ⟨fun hno => ?_, fun hat hnew hfull => ?_, fun hat hreq => ?_⟩
  · split
    next ha =>
      unfold State.fireCue
      rw [if_pos (hknown.mpr (hno.resolve_left (not_not_intro (htarget.mp ha))))]
    · rfl
  · rw [if_pos (htarget.mpr hat)]
    unfold State.fireCue
    rw [if_neg (hnew ∘ hknown.mp), if_neg]
    rw [hremote]
    exact Nat.not_lt.mpr hfull
  · obtain ⟨hlines, hnone, hpasses⟩ := h.requests hreq
    have hnew : ¬known := by
      rintro ⟨r, hr, -⟩
      rw [hreq.remote] at hr
      cases hr
    have hfire : base.fireCue (s.senderNumber sender) c.toNat =
        { base with remote := [RemoteEntry.mk c.toNat (s.senderNumber sender) 0] }.runPass := by
      unfold State.fireCue
      rw [if_neg (hnew ∘ hknown.mp), hnone]
      rfl
    rw [if_pos (htarget.mpr hat), hfire]
    generalize hu : { base with remote := [RemoteEntry.mk c.toNat (s.senderNumber sender) 0] } = u
    have honly : OnlyRemote u := by rw [← hu]; exact ⟨hlines, hpasses⟩
    have hone : u.remote = [RemoteEntry.mk c.toNat (s.senderNumber sender) 0] := by rw [← hu]
    have houtcomes : u.outcomes = s.outcomes := by rw [← hu]; exact (congrArg State.outcomes h.frame :)
    have hvoice : ∀ v, u.voice v = s.voice v := fun v => by rw [← hu]; exact h.voice v
    refine ⟨fun habsent => ?_, fun q hadm => ?_⟩
    · rw [honly.runPass_refused hone fun q => by
        have hrec : u.record c.toNat = s.record c.toNat := by rw [← hu, h.frame]; rfl
        rw [hrec]
        exact habsent q, houtcomes, ← hu]
      rw [← hnone]
    · have hadm' : Admitted u c.toNat q := by
        rw [← hu]
        exact (h.admitted hadm).congr
      have hmode : u.groupMode q.group = s.groupMode q.group := by rw [← hu, h.frame]; rfl
      have hcounter : u.startCounter = s.startCounter := by rw [← hu]; exact (congrArg State.startCounter h.frame :)
      refine ⟨fun v hg hv => ?_, fun hfree he hcut => ?_⟩
      · obtain ⟨t, ht, htakes⟩ := honly.runPass_takes hone hadm' (by rwa [hmode])
          ⟨by rw [hvoice]; exact hv.free, fun x hx => by rw [hvoice]; exact hv.lowest x hx⟩
        have htaken := htakes.voice
        have hothers := htakes.others
        rw [hvoice, hcounter] at htaken
        simp only [hvoice] at hothers
        rw [ht]
        exact ⟨_, rfl, rfl, htaken, (congrArg State.outcomes htakes.frame :).trans (by rw [houtcomes]),
          (congrArg State.pointer htakes.frame :), hothers⟩
      · have hreleasing : u.releasing = s.releasing := by rw [← hu]; exact (congrArg State.releasing h.frame :)
        have hcfg : u.cfg = s.cfg := by rw [← hu]; exact h.cfg
        rw [honly.runPass_waits hone hadm' (by simpa only [hvoice] using hfree) (by rwa [hcfg])
          (by simpa only [hvoice, hreleasing] using hcut)]

/-! ## RELEASE (R89) -/

theorem Completes.exec_release {g : Byte} (h : Completes s sender (.release g) base) :
    exec (.release sender g) s = .next (base.releaseGroup g.toNat) := by
  have hcomplete := h.completeFrame
  change Host.Outcome.next (s.completeFrame sender (.release g)) = _
  rw [hcomplete]
  cases sender <;> rfl

/-- A pass that finds no request does nothing. -/
theorem NoRequests.runPass (h : NoRequests s) : s.runPass = s := by
  have hwaits : NothingWaits { s with passesDue := s.passesDue + 1 } := ⟨h.lines, h.remote⟩
  have hone : s.passesDue + 1 ≤ 1 := Nat.le_of_eq (congrArg (· + 1) h.passes)
  exact (hwaits.settlePasses hone).trans (State.unowed h.passes)

/-- The pass of an event takes the lowest FREE voice for the one request, where that is admitted outside FIRST_WINS. -/
theorem OnlyRequest.runPass_takes {n v : Fin 8} {r : Request} {q : Cue} (h : OnlyRequest s n r) (hadm : Admitted s r.cue q)
    (hv : LowestFree s v) (hg : s.groupMode q.group ≠ .firstWins) : Served s s.runPass n r.cue v := by
  have htakes : Takes s (s.take v r.cue (.line n)) v r.cue q (.line n) n.castSucc := State.take_takes hadm.record hg rfl
  have hserve := State.serveLine_of_leaves h.line ((hadm.decideRequest r.latched (.line n)).trans (hv.stepVoice _ _))
  have hone : AtMostLine s n := ⟨h.others, h.remote⟩
  rw [hone.runPass h.passes (hone.of_eases ((Eases.refl s).serveLine n))
    (by rw [hserve]; exact (congrArg State.passesDue htakes.frame :).trans h.passes), hserve]
  refine ⟨htakes.voice, (State.clearRequest_line n).trans (if_pos rfl), ?_, (congrArg State.pointer htakes.frame :)⟩
  exact (congrArg (fun t => t.outcomes.get n.castSucc) htakes.frame :).trans (Table.get_set_self _ _ _)

/-- Settles O47: the view and the queue of `State.releaseGroup`, and the pass over what waits. -/
theorem releaseFreesTheGroup : Obligations.ReleaseFreesTheGroup := by
  intro s base sender g h hwire
  rw [h.exec_release]
  have hplace : ∀ i, groupPlace g.toNat = some i ↔ NamesGroup g i := fun i => groupPlace_eq_some.trans eq_comm
  refine ⟨fun hno => ?_, ?_⟩
  · unfold State.releaseGroup
    split
    · rfl
    next i hi =>
      refine congrArg _ (if_neg ?_)
      rw [h.cfg]
      exact hno i ((hplace i).mp hi)
  intro i hi hmode released
  have hqueue : (base.takeOut (Frame.keepsGroup g.toNat)) =
      { base with queue := base.queue.filter fun e => !(e.frame.isHeldOf g.toNat || e.frame.isReleaseOf g.toNat) } :=
    congrArg (fun l => { base with queue := l }) (takeOut_of_not_flying (hasFlying_of_waits (h.waits hwire) _))
  have hrelease : base.releaseGroup g.toNat = if (s.groups.get i).holder.isSome then released.runPass else released := by
    unfold State.releaseGroup
    rw [(hplace i).mpr hi]
    dsimp only
    rw [h.cfg, h.groups, if_pos hmode, hqueue]
  rw [hrelease]
  have hreleased : released = { s with
      queue := released.queue, tx := released.tx, rx := released.rx, idleCount := released.idleCount, echoed := released.echoed,
      received := released.received, flags := released.flags, groups := released.groups } := by
    simp only [released]
    rw [h.frame]
    rfl
  generalize released = u at hreleased
  refine ⟨fun hwhy => ?_, fun n r q v hheld hreq hadm hv hg => ?_⟩
  · split
    next hsome =>
      have hn := hwhy.resolve_right (Option.isSome_iff_ne_none.mp hsome)
      have hu : NoRequests u := by
        rw [hreleased]
        exact ⟨hn.lines, hn.remote, hn.passes⟩
      rw [hu.runPass]
    · rfl
  · rw [if_pos (Option.isSome_iff_ne_none.mpr hheld)]
    have hu : OnlyRequest u n r ∧ LowestFree u v ∧ u.groupMode q.group ≠ .firstWins := by
      rw [hreleased]
      exact ⟨⟨hreq.line, hreq.others, hreq.remote, hreq.passes⟩, ⟨hv.free, hv.lowest⟩, hg⟩
    exact ⟨_, rfl, hu.1.runPass_takes hadm hu.2.1 hu.2.2⟩

end Sys2Proof.Machine
end
section
/-! PROOF. The station's own CLAIM completes (OwnClaimNamesTheHolder). -/

namespace Sys2Proof.Machine

set_option Elab.async false

variable {s t x z : State} {v : Fin 8}

/-! ## The voice enters PRIMING (R52, R81) -/

/-- From s to x voice v has gone from CLAIMING to PRIMING, been announced, and its claimed request has ended PLAYED (R52, R81). -/
structure WinsVoice (s x : State) (v : Fin 8) : Prop where
  frame : x = { s with voices := x.voices, link := x.link, queue := x.queue, outcomes := x.outcomes, pointer := x.pointer }
  voice : x.voice v =
    { s.voice v with
      state := .priming, claimed := .played, announce := (x.voice v).announce, fetchOffset := (x.voice v).fetchOffset }
  others : ∀ u, u ≠ v → Untouched (s.voice u) (x.voice u)
  outcome : ∀ p, (s.voice v).source.place = some p → x.outcomes.get p = some .played ∧ x.pointer = p + 1
  run : s.mode = .run → (x.voice v).announce = .queued ∧
    x.queue = placeEntry (newEntry (startFrame (s.cueOf (s.voice v)) (s.voice v).cue (s.tag v)) s.cfg.number)
      (s.takeOut (Frame.isEndOf (s.tag v))).queue

/-- The first three acts of `State.claimWon`: the voice is PRIMING and fetched for, announced, and settled PLAYED. -/
def State.voiceWon (s : State) (v : Fin 8) : State :=
  let s1 := ((s.setVoice v { s.voice v with state := .priming }).arbitrate).decideAnnounce v
  (s1.setVoice v { s1.voice v with claimed := .played }).recordPlayed (s.voice v).source

theorem State.claimWon_eq (s : State) (v : Fin 8) :
    s.claimWon v = ((s.voiceWon v).applyOwedRelease v (s.voice v).source).applyStopMark v := rfl

/-- The decision to announce a voice of a group, where no frame is in flight and the queue has room. -/
theorem decideAnnounce_of_waits (hg : (s.cueOf (s.voice v)).group ≠ 0) (hw : ∀ e ∈ s.queue, e.inFlight = false) (hroom : s.hasRoom) :
    s.decideAnnounce v = if s.mode = .run then s.announced v else s := by
  split
  next hrun => exact decideAnnounce_of_room hrun (.inl hg) (hasFlying_of_waits hw _) hroom
  next hrun => exact decideAnnounce_of_silent (.inl hrun)

theorem State.recordPlayed_eq (s : State) (src : Source) :
    ∃ o p, s.recordPlayed src = { s with outcomes := o, pointer := p } ∧
      ∀ i, src.place = some i → o.get i = some .played ∧ p = i + 1 := by
  unfold State.recordPlayed
  cases hp : src.place with
  | none => exact ⟨s.outcomes, s.pointer, rfl, nofun⟩
  | some i =>
    refine ⟨_, _, rfl, fun j hj => ?_⟩
    cases hj
    exact ⟨Table.get_set_self _ _ _, rfl⟩

theorem State.voiceWon_wins (hg : (s.cueOf (s.voice v)).group ≠ 0) (hw : ∀ e ∈ s.queue, e.inFlight = false) (hroom : s.hasRoom) :
    WinsVoice s (s.voiceWon v) v := by
  obtain ⟨vs, k, harb, -⟩ := (s.setVoice v { s.voice v with state := .priming }).arbitrate_eq
  have hfetch := fun u => State.arbitrate_voice (s := s.setVoice v { s.voice v with state := .priming }) u
  have hown := hfetch v
  rw [State.voice_setVoice_self] at hown
  unfold State.voiceWon
  dsimp only
  generalize (s.setVoice v { s.voice v with state := .priming }).arbitrate = y at harb hfetch hown
  have hcueNumber : (y.voice v).cue = (s.voice v).cue := by rw [hown]
  have hcue : y.cueOf (y.voice v) = s.cueOf (s.voice v) := by
    have hcues : y.cues = s.cues := (congrArg State.cues harb :)
    unfold State.cueOf State.present? State.record
    rw [hcues, hcueNumber]
  have htag : y.tag v = s.tag v := by
    have hgen : (y.voice v).generation = (s.voice v).generation := by rw [hown]
    unfold State.tag
    rw [hgen]
  have hsame : y.queue = s.queue ∧ y.mode = s.mode ∧ y.cfg = s.cfg := by
    rw [harb]
    exact ⟨rfl, rfl, rfl⟩
  obtain ⟨hqueue, hmode, hcfg⟩ := hsame
  have hann := decideAnnounce_of_waits (s := y) (v := v) (by rw [hcue]; exact hg) (by rw [hqueue]; exact hw)
    (by unfold State.hasRoom; rw [hqueue]; exact hroom)
  rw [hmode] at hann
  have hz : ∃ a q, y.decideAnnounce v = { y.setVoice v { y.voice v with announce := a } with queue := q } ∧
      (s.mode = .run → a = .queued ∧
        q = placeEntry (newEntry (startFrame (s.cueOf (s.voice v)) (s.voice v).cue (s.tag v)) s.cfg.number)
          (s.takeOut (Frame.isEndOf (s.tag v))).queue) := by
    rw [hann]
    split
    · refine ⟨.queued, _, rfl, fun _ => ⟨rfl, ?_⟩⟩
      rw [hcue, hcueNumber, htag, hcfg, State.takeOut_queue, State.takeOut_queue, hqueue]
    next hrun => exact ⟨(y.voice v).announce, y.queue, (State.setVoice_self v).symm, fun h => absurd h hrun⟩
  obtain ⟨a, q, hz, hrun⟩ := hz
  rw [hz]
  clear hann hz
  obtain ⟨o, p, hplayed, hplace⟩ := State.recordPlayed_eq
    (({ y.setVoice v { y.voice v with announce := a } with queue := q } : State).setVoice v
      { ({ y.setVoice v { y.voice v with announce := a } with queue := q } : State).voice v with claimed := .played })
    (s.voice v).source
  rw [hplayed]
  have hvoice : ∀ u, State.voice
      { ({ y.setVoice v { y.voice v with announce := a } with queue := q } : State).setVoice v
          { ({ y.setVoice v { y.voice v with announce := a } with queue := q } : State).voice v with claimed := .played } with
        outcomes := o, pointer := p } u =
      if v = u then { y.voice v with announce := a, claimed := .played } else y.voice u := fun u => by
    have hinner : ∀ u, State.voice { y.setVoice v { y.voice v with announce := a } with queue := q } u =
        if v = u then { y.voice v with announce := a } else y.voice u := fun u => State.voice_setVoice y u v _
    have houter := State.voice_setVoice { y.setVoice v { y.voice v with announce := a } with queue := q } u v
      { ({ y.setVoice v { y.voice v with announce := a } with queue := q } : State).voice v with claimed := .played }
    refine (houter : _ = _).trans ?_
    rw [hinner, hinner, if_pos rfl]
    split <;> rfl
  refine ⟨?_, ?_, fun u hu => ?_, hplace, fun h => ?_⟩
  · rw [harb]
    rfl
  · rw [hvoice, if_pos rfl]
    rw [hown]
  · rw [hvoice, if_neg hu.symm]
    have hother := hfetch u
    rw [State.voice_setVoice_ne _ _ hu.symm] at hother
    exact hother.untouched
  · rw [hvoice, if_pos rfl]
    exact hrun h

end Sys2Proof.Machine
end
section
/-! PROOF. What an owed release and a stop mark make of a voice whose CLAIM is won (R30, R52, R57). -/

namespace Sys2Proof.Machine

set_option Elab.async false

variable {s t x z : State} {v : Fin 8} {src : Source}

/-- A line owes the release of a voice of its (R30). -/
def State.owes (s : State) (src : Source) : Prop := ∃ n, src = .line n ∧ (s.line n).owedRelease = true

theorem State.applyOwedRelease_of_not (h : ¬s.owes src) : s.applyOwedRelease v src = s := by
  unfold State.applyOwedRelease
  cases src with
  | line n => exact if_neg fun ho => h ⟨n, rfl, ho⟩
  | remote | none => rfl

theorem State.applyOwedRelease_of_line {n : Fin 8} (h : (s.line n).owedRelease = true) :
    s.applyOwedRelease v (.line n) = (s.setLine n (s.line n).clearOwed).releaseAsLine v := if_pos h

theorem State.applyStopMark_of_not (h : (s.voice v).stopMark = false) : s.applyStopMark v = s :=
  if_neg (by rw [h]; exact Bool.false_ne_true)

/-- A stop mark frees a voice that is PRIMING or SOUNDING (R57). -/
theorem State.applyStopMark_frees (h : (s.voice v).stopMark = true) (hs : (s.voice v).state = .priming ∨ (s.voice v).state = .sounding) :
    s.applyStopMark v = s.freeVoice v := by
  have hrelease : s.releaseVoice v (.fade 0) = s.freeVoice v := by
    unfold State.releaseVoice
    dsimp only
    rcases hs with hs | hs <;> rw [hs]
  exact (if_pos h).trans hrelease

/-- A voice that has been freed has no stop mark to act on. -/
theorem State.applyStopMark_freed (s : State) (v : Fin 8) : (s.freeVoice v).applyStopMark v = s.freeVoice v := by
  have hvoice := (s.freedLeft_voice v v).1 rfl
  have heq := s.freeVoice_eq v
  generalize s.freedLeft v = z at hvoice heq
  rw [heq]
  exact State.applyStopMark_of_not (congrArg Voice.stopMark hvoice :)

/-- A tail that begins touches the voices and the link only. -/
theorem State.beginTail_frame (s : State) (v : Fin 8) : ∃ vs k, s.beginTail v = { s with voices := vs, link := k } := by
  cases hm : (s.cueOf (s.voice v)).mode.tailEnd with
  | none =>
    refine ⟨s.voices, s.link, ?_⟩
    unfold State.beginTail
    dsimp only
    rw [hm]
  | some last =>
    cases ht : (s.voice v).tail with
    | some o => exact ⟨s.voices, s.link, State.beginTail_of_tail ht⟩
    | none =>
      obtain ⟨k, hk, -⟩ := State.beginTail_eq hm ht
      obtain ⟨vs, k', hk', -⟩ := State.arbitrate_eq (s := State.setVoice { s with link := k } v
        (((s.voice v).cutBack (crossing (s.cueOf (s.voice v)) (s.voice v) last)).tested (s.cueOf (s.voice v))))
      exact ⟨vs, k', hk.trans hk'⟩

/-- The same use of a slot, PRIMING or already SOUNDING (R19, R54). -/
structure SameUse (w u : Voice) : Prop where
  generation : u.generation = w.generation
  announce : u.announce = w.announce
  stopMark : u.stopMark = w.stopMark
  state : u.state = .priming ∨ u.state = .sounding

theorem SameUse.refl {w : Voice} (h : w.state = .priming) : SameUse w w := ⟨rfl, rfl, rfl, .inl h⟩

/-- A tail begun at a PRIMING voice of a LOOP_TAIL cue, now or before. -/
theorem State.beginTail_priming (hs : (s.voice v).state = .priming) (hm : (s.cueOf (s.voice v)).mode.tailEnd ≠ none) :
    SameUse (s.voice v) ((s.beginTail v).voice v) ∧ ((s.beginTail v).voice v).tail ≠ none := by
  cases ht : (s.voice v).tail with
  | some o =>
    rw [State.beginTail_of_tail ht, ht]
    exact ⟨SameUse.refl hs, nofun⟩
  | none =>
    obtain ⟨last, hlast⟩ := Option.ne_none_iff_exists'.mp hm
    have hvoice : SameButFetch _ _ := (State.beginTail_begins hlast ht).voice
    generalize hw : (s.voice v).cutBack (crossing (s.cueOf (s.voice v)) (s.voice v) last) = w at hvoice
    have hcut : SameUse (s.voice v) w ∧ w.tail ≠ none := by
      rw [← hw]
      exact ⟨⟨rfl, rfl, rfl, .inl hs⟩, nofun⟩
    obtain ⟨hsame, htail⟩ := hcut
    have hstate : (w.tested (s.cueOf (s.voice v))).state = .priming ∨ (w.tested (s.cueOf (s.voice v))).state = .sounding := by
      unfold Voice.tested
      split
      · exact .inr rfl
      · exact hsame.state
    generalize hst : (w.tested (s.cueOf (s.voice v))).state = st at hstate
    rw [hvoice, w.tested_frame]
    exact ⟨⟨hsame.generation, hsame.announce, hsame.stopMark, hst.symm ▸ hstate⟩, htail⟩

/-! ## The owed release and the stop mark -/

/-- From x to z at most the owed-release mark of a line has been cleared and a tail been begun at voice v. -/
structure Readied (x z : State) (v : Fin 8) : Prop where
  frame : z = { x with voices := z.voices, lines := z.lines, link := z.link }
  request : ∀ m, (z.line m).request = (x.line m).request
  voice : SameUse (x.voice v) (z.voice v)
  others : ∀ u, u ≠ v → Untouched (x.voice u) (z.voice u)

theorem Readied.refl (h : (x.voice v).state = .priming) : Readied x x v :=
  ⟨rfl, fun _ => rfl, SameUse.refl h, fun _ _ => Untouched.refl _⟩

/-- The owed-release mark of a line is cleared. -/
def State.unowe (s : State) (n : Fin 8) : State := s.setLine n (s.line n).clearOwed

theorem State.unowe_readied (h : (x.voice v).state = .priming) (n : Fin 8) : Readied x (x.unowe n) v := by
  refine ⟨rfl, fun m => ?_, SameUse.refl h, fun _ _ => Untouched.refl _⟩
  unfold State.unowe
  rw [State.line_setLine]
  split
  next e => exact e ▸ rfl
  · rfl

theorem Readied.beginTail (h : Readied x z v) (hs : (z.voice v).state = .priming)
    (hm : (z.cueOf (z.voice v)).mode.tailEnd ≠ none) : Readied x (z.beginTail v) v := by
  obtain ⟨hsame, -⟩ := State.beginTail_priming hs hm
  have hothers : ∀ u, u ≠ v → Untouched (z.voice u) ((z.beginTail v).voice u) := fun u hu =>
    (beginTail_acts (n := 0) (A := (· = v)) rfl).others u hu
  obtain ⟨vs, k, he⟩ := z.beginTail_frame v
  generalize z.beginTail v = y at hsame hothers he
  have hlines : y.lines = z.lines := (congrArg State.lines he :)
  refine ⟨?_, fun m => ?_, ?_, fun u hu => (h.others u hu).trans (hothers u hu)⟩
  · rw [he, h.frame]
  · rw [← h.request m]
    unfold State.line
    rw [hlines]
  · exact ⟨hsame.generation.trans h.voice.generation, hsame.announce.trans h.voice.announce,
      hsame.stopMark.trans h.voice.stopMark, hsame.state⟩

/-- What becomes of a PRIMING voice whose line may owe its release and that may have a stop mark (R30, R52, R57): it is readied, and it
is freed at once where it has a stop mark or an owed release that is no tail. -/
theorem State.owedAndStop_cases (hs : (x.voice v).state = .priming) (src : Source) :
    ∃ z, Readied x z v ∧ (¬x.owes src → z = x) ∧
      (x.owes src → (∀ n, src = .line n → (z.line n).owedRelease = false) ∧
        ((x.cueOf (x.voice v)).mode.tailEnd ≠ none → (z.voice v).tail ≠ none)) ∧
      ((x.voice v).stopMark = true ∨ x.owes src ∧ (x.cueOf (x.voice v)).mode.tailEnd = none →
        (x.applyOwedRelease v src).applyStopMark v = z.freeVoice v) ∧
      (¬((x.voice v).stopMark = true ∨ x.owes src ∧ (x.cueOf (x.voice v)).mode.tailEnd = none) →
        (x.applyOwedRelease v src).applyStopMark v = z) := by
  by_cases ho : x.owes src
  · obtain ⟨n, rfl, hn⟩ := ho
    have hready := State.unowe_readied hs n
    have hline : ((x.unowe n).line n).owedRelease = false := congrArg Line.owedRelease (x.line_setLine_self n _)
    have hclear : ∀ m, Source.line n = .line m → ((x.unowe n).line m).owedRelease = false := fun m hm => Source.line.inj hm ▸ hline
    have howes : x.owes (.line n) := ⟨n, rfl, hn⟩
    have happly : x.applyOwedRelease v (.line n) = (x.unowe n).releaseAsLine v := State.applyOwedRelease_of_line hn
    have hpriming : ((x.unowe n).voice v).state = .priming := hs
    have hmode : (x.unowe n).cueOf ((x.unowe n).voice v) = x.cueOf (x.voice v) := rfl
    unfold State.releaseAsLine at happly
    rw [hmode] at happly
    by_cases hm : (x.cueOf (x.voice v)).mode.tailEnd = none
    · refine ⟨x.unowe n, hready, fun h => absurd howes h, fun _ => ⟨hclear, fun h => absurd hm h⟩, fun _ => ?_,
        fun h => absurd (.inr ⟨howes, hm⟩) h⟩
      rw [happly, Cue.lineRelease_of_no_tail hm]
      have hfree : (x.unowe n).releaseVoice v (.fade (x.cueOf (x.voice v)).fadeOut) = (x.unowe n).freeVoice v := by
        unfold State.releaseVoice
        dsimp only
        rw [hpriming]
      rw [hfree, State.applyStopMark_freed]
    · obtain ⟨hsame, htail⟩ := State.beginTail_priming hpriming (hmode ▸ hm)
      have hlines : ((x.unowe n).beginTail v).lines = (x.unowe n).lines := by
        obtain ⟨vs, k, he⟩ := (x.unowe n).beginTail_frame v
        rw [he]
      refine ⟨(x.unowe n).beginTail v, hready.beginTail hpriming hm, fun h => absurd howes h,
        fun _ => ⟨fun m h => ?_, fun _ => htail⟩, fun h => ?_, fun h => ?_⟩
      · unfold State.line
        rw [hlines]
        exact hclear m h
      · rw [happly, Cue.lineRelease_of_tail hm, State.releaseVoice_tail_of_priming hpriming]
        exact State.applyStopMark_frees (hsame.stopMark.trans (h.resolve_right fun h => hm h.2)) hsame.state
      · rw [happly, Cue.lineRelease_of_tail hm, State.releaseVoice_tail_of_priming hpriming]
        exact State.applyStopMark_of_not (hsame.stopMark.trans (Bool.eq_false_iff.mpr fun hstop => h (.inl hstop)))
  · refine ⟨x, Readied.refl hs, fun _ => rfl, fun h => absurd h ho, fun h => ?_, fun h => ?_⟩ <;>
      rw [State.applyOwedRelease_of_not ho]
    · exact State.applyStopMark_frees (h.resolve_right fun h => ho h.1) (.inl hs)
    · exact State.applyStopMark_of_not (Bool.eq_false_iff.mpr fun hstop => h (.inl hstop))

end Sys2Proof.Machine
end
section
/-! PROOF. The station's own CLAIM completes (OwnClaimNamesTheHolder): the view, the voice, and the RELEASE where the voice ends at once. -/

namespace Sys2Proof.Machine

set_option Elab.async false

variable {s t x z : State} {v : Fin 8} {i : Fin 15} {g c : Byte} {e : Entry}

/-! ## The claimant (R40, R81) -/

theorem OnlyClaimant.claimant {n : Nat} (h : OnlyClaimant s n v) : s.claimant n = some v := by
  have heq : s.claimant n = slots.find? fun u => decide (u = v) := by
    unfold State.claimant
    congr 1
    funext u
    rw [← Bool.decide_and, decide_eq_decide]
    exact ⟨fun hu => h.only u hu.1 hu.2, fun e => e ▸ ⟨h.state, h.group⟩⟩
  have hfind : ∀ v : Fin 8, (slots.find? fun u => decide (u = v)) = some v := by decide
  rw [heq, hfind]

theorem NoClaimant.claimant {n : Nat} (h : NoClaimant s n) : s.claimant n = none := by
  unfold State.claimant
  rw [List.find?_eq_none]
  intro u _ hu
  rw [Bool.and_eq_true, decide_eq_true_iff, decide_eq_true_iff] at hu
  exact h u hu.1 hu.2

theorem exec_ownClaim {heard : Bool} (hfly : s.flying = some e) (he : e.frame = .claim g c) :
    exec (.ownClaimComplete heard) s = .next ((s.sent heard).ownClaim g.toNat) := by
  change Host.Outcome.next (s.completeOwn heard Frame.isClaim) = _
  unfold State.completeOwn
  rw [hfly, State.flightDone_eq_sent]
  dsimp only
  rw [he]
  rfl

/-- The frame that has been sent has left a place in the queue (R141, R144). -/
theorem State.hasRoom_sent (hfly : s.flying = some e) (hlen : s.queue.length ≤ 8) (heard : Bool) : (s.sent heard).hasRoom := by
  have hmem : e ∈ s.queue := List.mem_of_find?_eq_some hfly
  have hflight : e.inFlight = true := by
    have hp := List.find?_some hfly
    rw [Bool.and_eq_true] at hp
    exact hp.1
  have hqueue : (s.sent heard).queue = s.queue.filter fun e => !e.inFlight := by cases heard <;> rfl
  have hlt : (s.queue.filter fun e => !e.inFlight).length < s.queue.length :=
    List.length_filter_lt_length_iff_exists.mpr ⟨e, hmem, by rw [hflight]; exact Bool.false_ne_true⟩
  unfold State.hasRoom
  rw [hqueue]
  exact Nat.lt_of_lt_of_le hlt hlen

/-! ## The voice as its CLAIM leaves it -/

theorem GroupView.won_holdingVoice (w : GroupView) (n : Nat) (o : Option (Fin 8 × Nat)) (l : Option (Fin 8)) :
    (w.won n o l).holdingVoice = o := rfl

/-- The station with its CLAIM for the group at place i sent: base is s after the frame, z after the voice has been readied. -/
structure ClaimSettled (s base z : State) (v : Fin 8) (i : Fin 15) : Prop where
  group : z.groups.get i = (s.groups.get i).won s.cfg.number (some (v, s.tag v)) (s.voice v).source.line?
  others : ∀ j, j ≠ i → z.groups.get j = s.groups.get j
  settings : z.cfg = s.cfg ∧ z.mode = s.mode
  outcome : ∀ p, (s.voice v).source.place = some p → z.outcomes.get p = some .played ∧ z.pointer = p + 1
  voices : ∀ u, u ≠ v → Untouched (s.voice u) (z.voice u)
  flags : z.flags = base.flags
  requests : NoRequests z
  generation : (z.voice v).generation = (s.voice v).generation
  state : (z.voice v).state = .priming ∨ (z.voice v).state = .sounding
  run : s.mode = .run → (z.voice v).announce = .queued ∧
    z.queue = placeEntry (newEntry (startFrame (s.cueOf (s.voice v)) (s.voice v).cue (s.tag v)) s.cfg.number)
      (base.takeOut (Frame.isEndOf (s.tag v))).queue

theorem placeEntry_isStart_filter {tag : Nat} {f : Entry} (hf : f.frame.isStartOf tag = true) (l : List Entry) :
    ((placeEntry f l).filter fun e => !e.frame.isStartOf tag).length ≤ l.length := by
  obtain ⟨a, b, hl, hq, -, -⟩ := placeEntry_placed f l
  rw [hq, hl, List.filter_append, List.filter_cons_of_neg (by rw [hf]; exact Bool.false_ne_true), ← List.filter_append]
  exact List.length_filter_le _ _

/-- A voice freed as soon as its CLAIM is won leaves its group and, under hold AUTO, queues a RELEASE for it (R57, R66, R88). -/
theorem ClaimSettled.freed (h : ClaimSettled s x z v i) (hlen : x.queue.length ≤ 7) (hwaits : ∀ e ∈ x.queue, e.inFlight = false) :
    (z.freedLeft v).voice v = Voice.freed (s.voice v).generation ∧
      ((z.freedLeft v).groups.get i) = { z.groups.get i with holdingVoice := none } ∧
      (∀ u, u ≠ v → Untouched (s.voice u) ((z.freedLeft v).voice u)) ∧
      (∀ p, (s.voice v).source.place = some p →
        (z.freedLeft v).outcomes.get p = some .played ∧ (z.freedLeft v).pointer = p + 1) ∧
      (s.mode = .run → (s.cfg.groups.get i).manual = false → (∀ j, (s.groups.get j).holdingVoice ≠ some (v, s.tag v)) →
        (z.freedLeft v).hasFrame (Frame.isReleaseOf (i.val + 1)) = true) := by
  obtain ⟨hcfg, hmode⟩ := h.settings
  have hclaim : (z.voice v).state ≠ .claiming := fun hc => by
    rcases h.state with hs | hs <;> rw [hs] at hc <;> cases hc
  have htag : z.tag v = s.tag v := by
    unfold State.tag
    rw [h.generation]
  have hholding : (z.groups.get i).holdingVoice = some (v, z.tag v) := by
    rw [h.group, htag, GroupView.won_holdingVoice]
  have hleaves := State.freedLeft_leaves hclaim
  unfold LeavesGroupsAndQueue at hleaves
  dsimp only at hleaves
  obtain ⟨hgroups, q, -, -, hqueued, -, hone⟩ := hleaves
  have hvoices := fun u => z.freedLeft_voice u v
  have hframe := (z.freedLeft_announces v).frame
  rw [State.withFreed_of_not_claiming hclaim] at hframe
  generalize z.freedLeft v = t at hgroups hqueued hone hvoices hframe ⊢
  have hfreed := (hvoices v).1 rfl
  rw [h.generation] at hfreed
  have hview := (hgroups i).trans (if_pos hholding)
  refine ⟨hfreed, hview, fun u hu => ?_, fun p hp => ?_, fun hrun hmanual hno => ?_⟩
  · exact (h.voices u hu).trans ((hvoices u).2 hu.symm).untouched
  · have houtcomes : t.outcomes = z.outcomes := (congrArg State.outcomes hframe :)
    have hpointer : t.pointer = z.pointer := (congrArg State.pointer hframe :)
    rw [houtcomes, hpointer]
    exact h.outcome p hp
  obtain ⟨hannounce, hqueue⟩ := h.run hrun
  have htagByte : (BitVec.ofNat 8 (s.tag v)).toNat = s.tag v := by simp [Nat.mod_eq_of_lt (s.tag_lt v)]
  have hstart : (newEntry (startFrame (s.cueOf (s.voice v)) (s.voice v).cue (s.tag v)) s.cfg.number).frame.isStartOf (s.tag v) =
      true := beq_iff_eq.mpr htagByte
  obtain ⟨a, b, hab, hplace, -, -⟩ := placeEntry_placed
    (newEntry (startFrame (s.cueOf (s.voice v)) (s.voice v).cue (s.tag v)) s.cfg.number) (x.takeOut (Frame.isEndOf (s.tag v))).queue
  rw [← hqueue] at hplace
  have hzwaits : ∀ e ∈ z.queue, e.inFlight = false := fun f hf => by
    rw [hplace, List.mem_append, List.mem_cons, or_left_comm] at hf
    rcases hf with rfl | hf
    · rfl
    · rw [← List.mem_append, ← hab, State.takeOut_queue] at hf
      exact hwaits f (List.mem_filter.mp hf).1
  have hwaiting : z.hasWaiting (Frame.isStartOf (z.tag v)) = true := by
    unfold State.hasWaiting
    rw [List.any_eq_true]
    refine ⟨_, hplace ▸ List.mem_append_right a List.mem_cons_self, ?_⟩
    rw [htag, hstart]
    rfl
  obtain ⟨hq, -⟩ := (hqueued hannounce).2 (hasFlying_of_waits hzwaits _) hwaiting
  have hshort : q.length < Config.queueSize := by
    have hfilter := placeEntry_isStart_filter hstart (x.takeOut (Frame.isEndOf (s.tag v))).queue
    have htaken : (x.takeOut (Frame.isEndOf (s.tag v))).queue.length ≤ x.queue.length := List.length_filter_le _ _
    rw [hq, htag, hqueue]
    exact Nat.lt_of_le_of_lt hfilter (Nat.lt_of_le_of_lt htaken (Nat.lt_succ_of_le hlen))
  obtain ⟨hthere, hplaced⟩ := hone i hholding fun j hj => by
    by_contra hne
    rw [h.others j hne, htag] at hj
    exact hno j hj
  rw [hcfg, hmode] at hplaced hthere
  unfold State.hasFrame
  rw [List.any_eq_true]
  cases hr : q.any fun e => e.frame.isReleaseOf (i.val + 1) with
  | true =>
    rw [hthere (.inr (.inr hr))]
    exact List.any_eq_true.mp hr
  | false =>
    obtain ⟨a, b, -, hb, -, -⟩ := hplaced hmanual hrun hr hshort
    have hi := i.isLt
    refine ⟨_, hb ▸ List.mem_append_right a List.mem_cons_self, beq_iff_eq.mpr ?_⟩
    simp only [BitVec.toNat_ofNat]
    omega

end Sys2Proof.Machine
end
section
/-! PROOF. The station's own CLAIM completes (OwnClaimNamesTheHolder): the cases put together. -/

namespace Sys2Proof.Machine

set_option Elab.async false

variable {s t x z : State} {v : Fin 8} {i : Fin 15} {g c : Byte} {e : Entry}

/-- The completion of an own CLAIM of a group that voice v claims: the view is set, and the voice won. -/
theorem State.ownClaim_of_claimant {n : Nat} (hi : groupPlace n = some i) (h : OnlyClaimant s n v) :
    s.ownClaim n = ((s.setGroup i ((s.groups.get i).won s.cfg.number (some (v, s.tag v)) (s.voice v).source.line?)).claimWon
      v).settlePasses := by
  unfold State.ownClaim
  rw [hi]
  dsimp only
  rw [h.claimant]

/-- Up to the owed release and the stop mark the CLAIM is settled with the voice readied. -/
theorem ClaimSettled.of_readied {base : State} (hbase : NoRequests base)
    (hwin : WinsVoice (base.setGroup i ((base.groups.get i).won base.cfg.number (some (v, base.tag v))
      (base.voice v).source.line?)) x v) (hready : Readied x z v) : ClaimSettled base base z v i := by
  have hframe := hwin.frame
  have hz := hready.frame
  have hgroups : z.groups = base.groups.set i ((base.groups.get i).won base.cfg.number (some (v, base.tag v))
      (base.voice v).source.line?) := (congrArg State.groups hz :).trans (congrArg State.groups hframe :)
  have hlines : x.lines = base.lines := (congrArg State.lines hframe :)
  have hqueue : z.queue = x.queue := (congrArg State.queue hz :)
  have houtcomes : z.outcomes = x.outcomes := (congrArg State.outcomes hz :)
  have hpointer : z.pointer = x.pointer := (congrArg State.pointer hz :)
  refine ⟨?_, fun j hj => ?_, ⟨(congrArg State.cfg hz :).trans (congrArg State.cfg hframe :),
    (congrArg State.mode hz :).trans (congrArg State.mode hframe :)⟩, fun p hp => ?_, fun u hu => ?_,
    (congrArg State.flags hz :).trans (congrArg State.flags hframe :), ⟨fun m => ?_, ?_, ?_⟩, ?_, hready.voice.state, fun hrun => ?_⟩
  · rw [hgroups, Table.get_set_self]
  · rw [hgroups, Table.get_set_ne _ _ hj.symm]
  · rw [houtcomes, hpointer]
    exact hwin.outcome p hp
  · exact (hwin.others u hu).trans (hready.others u hu)
  · rw [hready.request]
    unfold State.line
    rw [hlines]
    exact hbase.lines m
  · exact (congrArg State.remote hz :).trans ((congrArg State.remote hframe :).trans hbase.remote)
  · exact (congrArg State.passesDue hz :).trans ((congrArg State.passesDue hframe :).trans hbase.passes)
  · rw [hready.voice.generation, hwin.voice]
    rfl
  · obtain ⟨ha, hq⟩ := hwin.run hrun
    rw [hready.voice.announce, hqueue]
    exact ⟨ha, hq⟩

/-- The queue with nothing taken out, where no entry is as asked. -/
theorem takeOut_queue_of_none {p : Frame → Bool} (h : ∀ e ∈ s.queue, p e.frame = false) : (s.takeOut p).queue = s.queue := by
  rw [State.takeOut_queue]
  exact List.filter_eq_self.mpr fun e he => by rw [h e he, Bool.and_false, Bool.not_false]

/-- How the completion of an own CLAIM comes to its end, from the station after the frame. -/
theorem State.ownClaim_cases {n : Nat} (hw : ∀ e ∈ s.queue, e.inFlight = false) (hroom : s.hasRoom) (hreq : NoRequests s)
    (hi : groupPlace n = some i) (h : OnlyClaimant s n v) :
    ∃ x z, WinsVoice (s.setGroup i ((s.groups.get i).won s.cfg.number (some (v, s.tag v)) (s.voice v).source.line?)) x v ∧
      ClaimSettled s s z v i ∧ (¬s.owes (s.voice v).source → z = x) ∧
      (s.owes (s.voice v).source → (∀ n, (s.voice v).source = .line n → (z.line n).owedRelease = false) ∧
        ((s.cueOf (s.voice v)).mode.tailEnd ≠ none → (z.voice v).tail ≠ none)) ∧
      ((s.voice v).stopMark = true ∨ s.owes (s.voice v).source ∧ (s.cueOf (s.voice v)).mode.tailEnd = none →
        s.ownClaim n = z.freedLeft v) ∧
      (¬((s.voice v).stopMark = true ∨ s.owes (s.voice v).source ∧ (s.cueOf (s.voice v)).mode.tailEnd = none) →
        s.ownClaim n = z) := by
  have hclaim := State.ownClaim_of_claimant hi h
  have hgroup : (s.cueOf (s.voice v)).group ≠ 0 := by
    rw [h.group, ← groupPlace_eq_some.mp hi]
    exact Nat.succ_ne_zero _
  have hwin := State.voiceWon_wins
    (s := s.setGroup i ((s.groups.get i).won s.cfg.number (some (v, s.tag v)) (s.voice v).source.line?)) (v := v) hgroup hw hroom
  have heq := State.claimWon_eq
    (s.setGroup i ((s.groups.get i).won s.cfg.number (some (v, s.tag v)) (s.voice v).source.line?)) v
  generalize State.voiceWon
    (s.setGroup i ((s.groups.get i).won s.cfg.number (some (v, s.tag v)) (s.voice v).source.line?)) v = x at hwin heq
  rw [heq] at hclaim
  have hvoice := hwin.voice
  have hstate : (x.voice v).state = .priming := by rw [hvoice]
  have hmark : (x.voice v).stopMark = (s.voice v).stopMark := by rw [hvoice]; rfl
  have howes : x.owes (s.voice v).source ↔ s.owes (s.voice v).source := by
    have hlines : x.lines = s.lines := (congrArg State.lines hwin.frame :)
    unfold State.owes State.line
    rw [hlines]
  have hcue : x.cueOf (x.voice v) = s.cueOf (s.voice v) := by
    have hcues : x.cues = s.cues := (congrArg State.cues hwin.frame :)
    have hnumber : (x.voice v).cue = (s.voice v).cue := by rw [hvoice]; rfl
    unfold State.cueOf State.present? State.record
    rw [hcues, hnumber]
  obtain ⟨z, hready, hsame, howed, hends, hgoes⟩ := State.owedAndStop_cases hstate (s.voice v).source
  rw [howes] at hsame howed
  rw [hmark, howes, hcue] at hends hgoes
  rw [hcue] at howed
  have hsettled := ClaimSettled.of_readied hreq hwin hready
  refine ⟨x, z, hwin, hsettled, hsame, howed, fun he => ?_, fun he => ?_⟩ <;> refine hclaim.trans ?_
  · refine (congrArg State.settlePasses (hends he)).trans ?_
    exact hsettled.requests.freeVoice v
  · refine (congrArg State.settlePasses (hgoes he)).trans ?_
    exact hsettled.requests.settlePasses

theorem Completes.eq_with {base : State} {sender : Sender} {f : Frame} (h : Completes s sender f base) :
    ∃ q tx rx n ec r fl, base =
      { s with queue := q, tx := tx, rx := rx, idleCount := n, echoed := ec, received := r, flags := fl } :=
  ⟨_, _, _, _, _, _, _, h.frame⟩

/-- Settles O44: the CLAIM comes to one of two ends (`State.ownClaim_cases`), of which the one frees the voice (`ClaimSettled.freed`). -/
theorem ownClaimNamesTheHolder : Obligations.OwnClaimNamesTheHolder := by
  intro s heard e g c i hfly he hi
  have hplace : groupPlace g.toNat = some i := groupPlace_eq_some.mpr hi.symm
  have hcomplete : Completes s (.own heard) (.claim g c) (s.sent heard) := ⟨⟨e, hfly, he⟩, rfl⟩
  have hroom := fun h => State.hasRoom_sent hfly h heard
  have hflag : heard = false → (s.sent heard).flag .unheard = true := by
    rintro rfl
    exact State.flag_latch_self _ _
  have hwaits : ∀ e ∈ (s.sent heard).queue, e.inFlight = false := by
    rw [← State.flightDone_eq_sent]
    exact flightDone_waits s heard
  have hqueue : ∀ x ∈ (s.sent heard).queue, x ∈ s.queue := by
    cases heard <;> exact fun x hx => (List.mem_filter.mp hx).1
  rw [exec_ownClaim hfly he]
  obtain ⟨q, tx, rx, ic, ec, r, fl, hbase⟩ := hcomplete.eq_with
  rw [hbase] at hroom hflag hwaits hqueue ⊢
  refine ⟨fun hno => ?_, ?_⟩
  · have hnone : NoClaimant { s with queue := q, tx := tx, rx := rx, idleCount := ic, echoed := ec, received := r, flags := fl }
      g.toNat := hno
    unfold State.ownClaim
    rw [hplace]
    dsimp only
    rw [hnone.claimant]
    rfl
  intro v honly hreq hlaw _ w owed tails ends
  obtain ⟨x, z, hwin, hset, hsame, howed, hends, hgoes⟩ := State.ownClaim_cases hwaits (hroom hlaw.queue.size)
    ⟨hreq.lines, hreq.remote, hreq.passes⟩ hplace ⟨honly.state, honly.group, honly.only⟩
  have hends' : _ ↔ ends := or_congr_right (and_congr_right fun _ => not_not.symm)
  have hgroup := hset.group
  have hunheard : heard = false → z.flag .unheard = true := fun hh =>
    (congrArg (fun l => (Table.get l (Flag.place .unheard)).set) hset.flags).trans (hflag hh)
  by_cases hend : ends
  · obtain ⟨hfreed, hview, hothers, houtcome, hrelease⟩ := hset.freed (Nat.le_of_lt_succ (hroom hlaw.queue.size)) hwaits
    rw [hgroup] at hview
    have heases := (Eases.refl z).freedLeft v
    refine ⟨z.freedLeft v, congrArg _ (hends (hends'.mpr hend)), ?_, ?_, fun n hn => ?_, houtcome, hothers,
      fun hh => heases.flag _ (hunheard hh), fun h => absurd hend h, fun h => absurd hend h,
      fun _ => ⟨hfreed, ?_, fun hrun hm hno => hi ▸ hrelease hrun hm hno⟩⟩
    · rw [hview]
      rfl
    · rw [hview]
      rfl
    · rw [hview]
      exact congrArg Source.line? hn
    · rw [hview]
  · refine ⟨z, congrArg _ (hgoes fun h => hend (hends'.mp h)), ?_, ?_, fun n hn => ?_, hset.outcome, hset.voices, hunheard,
      fun _ ho => ⟨?_, ?_, fun hrun hno => ?_⟩, fun _ ho => ⟨hset.state, (howed ho).2 fun hm => hend (.inr ⟨ho, not_not.mpr hm⟩),
      (howed ho).1⟩, fun h => absurd h hend⟩
    · rw [hgroup]
      rfl
    · rw [hgroup]
      rfl
    · rw [hgroup]
      exact congrArg Source.line? hn
    · rw [hgroup]
      rfl
    · rw [hsame ho]
      exact hwin.voice
    · obtain ⟨hqueued, hplaced⟩ := hset.run hrun
      have hplaced' := hplaced.trans (congrArg (placeEntry _) (takeOut_queue_of_none fun x hx => hno x (hqueue x hx)))
      refine ⟨hqueued, BitVec.ofNat 8 (s.cueOf w).depth, BitVec.ofNat 8 (startHold (s.cueOf w)), ?_⟩
      have hcode : BitVec.ofNat 8 (s.cueOf w).group = g := by rw [honly.group]; simp
      rw [hplaced', ← hcode]
      exact placeEntry_placed _ _

end Sys2Proof.Machine
end
section
/-! PROOF. An ARM and its pass (ArmAndDisarmSetTheNamedGroups, of the ARM). -/

namespace Sys2Proof.Machine

set_option Elab.async false

variable {s t base : State} {sender : Sender} {set : GroupSet} {a b v : Fin 8}

/-! ## Arming (R74, R75) -/

/-- The station with the armed flags of the named groups set. -/
def State.withArmed (s : State) (set : GroupSet) : State :=
  { s with groups := s.groups.mapIdx fun i g => { g with armed := g.armed || set.getLsbD (i + 1) } }

/-- The station with the armed flags of the named groups cleared. -/
def State.withDisarmed (s : State) (set : GroupSet) : State :=
  { s with groups := s.groups.mapIdx fun i g => { g with armed := g.armed && !set.getLsbD (i + 1) } }

theorem State.armingChanges_iff (value : Bool) :
    s.armingChanges set value = true ↔ ∃ i : Fin 15, set.getLsbD (i.val + 1) = true ∧ (s.groups.get i).armed ≠ value := by
  simp [State.armingChanges, names, mem_groupPlaces]

theorem State.setArmed_get (value : Bool) (i : Fin 15) :
    (s.setArmed set value).groups.get i =
      { s.groups.get i with armed := if set.getLsbD (i.val + 1) then value else (s.groups.get i).armed } := by
  unfold State.setArmed names
  rw [Table.get_mapIdx]
  split <;> rfl

theorem State.setArmed_true : s.setArmed set true = s.withArmed set := by
  have h : (s.setArmed set true).groups = (s.withArmed set).groups := by
    apply Table.ext_get
    intro i
    rw [State.setArmed_get]
    unfold State.withArmed
    rw [Table.get_mapIdx]
    cases set.getLsbD (i.val + 1) <;> simp
  exact congrArg (fun g => { s with groups := g }) h

theorem State.setArmed_false : s.setArmed set false = s.withDisarmed set := by
  have h : (s.setArmed set false).groups = (s.withDisarmed set).groups := by
    apply Table.ext_get
    intro i
    rw [State.setArmed_get]
    unfold State.withDisarmed
    rw [Table.get_mapIdx]
    cases set.getLsbD (i.val + 1) <;> simp
  exact congrArg (fun g => { s with groups := g }) h

/-- Where no named group changes, setting the flags sets nothing. -/
theorem State.setArmed_of_unchanged {value : Bool} (h : s.armingChanges set value = false) : s.setArmed set value = s := by
  have hget : (s.setArmed set value).groups = s.groups := by
    apply Table.ext_get
    intro i
    rw [State.setArmed_get]
    split
    next hi =>
      have harmed : (s.groups.get i).armed = value := by
        by_contra hne
        exact Bool.false_ne_true (h.symm.trans ((State.armingChanges_iff value).mpr ⟨i, hi, hne⟩))
      rw [← harmed]
    · rfl
  exact congrArg (fun g => { s with groups := g }) hget

/-- An ARM arms the named groups, and runs a pass where one was disarmed. -/
theorem State.armGroups_eq :
    s.armGroups set = if s.armingChanges set true then (s.withArmed set).runPass else s.withArmed set := by
  unfold State.armGroups
  rw [State.setArmed_true]
  cases h : s.armingChanges set true with
  | true => rfl
  | false =>
    rw [← State.setArmed_true, State.setArmed_of_unchanged h]

theorem Completes.exec_arm (h : Completes s sender (.arm set) base) : exec (.arm sender set) s = .next (base.armGroups set) := by
  have hcomplete := h.completeFrame
  change Host.Outcome.next (s.completeFrame sender (.arm set)) = _
  rw [hcomplete]
  cases sender <;> rfl

theorem Completes.exec_disarm (h : Completes s sender (.disarm set) base) :
    exec (.disarm sender set) s = .next (base.disarmGroups set) := by
  have hcomplete := h.completeFrame
  change Host.Outcome.next (s.completeFrame sender (.disarm set)) = _
  rw [hcomplete]
  cases sender <;> rfl

/-- With no request pending an ARM arms the named groups, and its pass finds nothing. -/
theorem NoRequests.armGroups (h : NoRequests s) : s.armGroups set = s.withArmed set := by
  have hn : NoRequests (s.withArmed set) := ⟨h.lines, h.remote, h.passes⟩
  rw [State.armGroups_eq, hn.runPass, ite_self]

/-! ## A pass over two lines (R36) -/

/-- Where one member alone has something to do among those of the list, the whole comes to its turn. -/
theorem inOrder_eq_turn {α : Type} {f : α → State → State} {l : List α} {x : α} (hl : l.Nodup) (hx : x ∈ l)
    (before : ∀ a ∈ l, a ≠ x → f a s = s) (after : ∀ a ∈ l, a ≠ x → f a (f x s) = f x s) : inOrder f l s = f x s := by
  obtain ⟨p, q, rfl⟩ := List.append_of_mem hx
  rw [List.nodup_middle, List.nodup_cons, List.mem_append, not_or] at hl
  obtain ⟨⟨hp, hq⟩, -⟩ := hl
  rw [inOrder_append, inOrder_eq_self fun y hy => before y (List.mem_append_left _ hy) fun e => hp (e ▸ hy)]
  exact inOrder_eq_self fun y hy => after y (List.mem_append_right p (List.mem_cons_of_mem x hy)) fun e => hq (e ▸ hy)

/-- Where two members alone have something to do, the whole comes to their two turns in the list's order. -/
theorem inOrder_eq_two {α : Type} {f : α → State → State} {l : List α} {x y : α} (hl : l.Nodup) (hxy : [x, y].Sublist l)
    (before : ∀ z, z ≠ x → z ≠ y → f z s = s) (between : ∀ z, z ≠ x → z ≠ y → f z (f x s) = f x s)
    (after : ∀ z, z ≠ x → z ≠ y → f z (f y (f x s)) = f y (f x s)) : inOrder f l s = f y (f x s) := by
  obtain ⟨r, l', rfl, hx, hy⟩ := List.cons_sublist_iff.mp hxy
  rw [List.singleton_sublist] at hy
  obtain ⟨hr, hl', hdisjoint⟩ := List.nodup_append'.mp hl
  have hfirst : inOrder f r s = f x s := inOrder_eq_turn hr hx
    (fun z hz hne => before z hne fun e => hdisjoint hz (e ▸ hy)) fun z hz hne => between z hne fun e => hdisjoint hz (e ▸ hy)
  rw [inOrder_append, hfirst]
  exact inOrder_eq_turn hl' hy (fun z hz hne => between z (fun e => hdisjoint hx (e ▸ hz)) hne)
    fun z hz hne => after z (fun e => hdisjoint hx (e ▸ hz)) hne

/-- The lines that alone may have requests. -/
structure AtMostTwo (s : State) (a b : Fin 8) : Prop where
  others : ∀ n, n ≠ a → n ≠ b → (s.line n).request = none
  remote : s.remote = []

theorem AtMostTwo.of_eases (h : AtMostTwo s a b) (k : Eases s t) : AtMostTwo t a b :=
  ⟨fun n ha hb => (k.request n).elim (·.trans (h.others n ha hb)) id, List.suffix_nil.mp (h.remote ▸ k.remote)⟩

theorem AtMostTwo.servePlace (h : AtMostTwo s a b) {p : Fin 9} (ha : p ≠ a.castSucc) (hb : p ≠ b.castSucc) :
    s.servePlace p = s := by
  induction p using Fin.lastCases with
  | last => exact State.servePlace_last h.remote
  | cast n =>
    rw [State.servePlace_castSucc]
    exact State.serveLine_of_none (h.others n (fun e => ha (e ▸ rfl)) fun e => hb (e ▸ rfl))

/-- The serving order is by line number from 0, or round from the rotation pointer (R36). -/
theorem placesFrom_sublist :
    ∀ (start : Fin 9) (a b : Fin 8), (a.val + 9 - start.val) % 9 < (b.val + 9 - start.val) % 9 →
      [a.castSucc, b.castSucc].Sublist (placesFrom start) := by decide

/-- A pass over the requests of two lines serves the one that comes first in the order, then the other. -/
theorem AtMostTwo.servePass (h : AtMostTwo s a b) (hab : [a.castSucc, b.castSucc].Sublist s.servingOrder) :
    s.servePass = (s.serveLine a).serveLine b := by
  have hfirst := h.of_eases ((Eases.refl s).serveLine a)
  have hsecond := hfirst.of_eases ((Eases.refl (s.serveLine a)).serveLine b)
  rw [← State.servePlace_castSucc, ← State.servePlace_castSucc] at hsecond ⊢
  rw [← State.servePlace_castSucc] at hfirst
  exact inOrder_eq_two (s.servingOrder_nodup 0).1 hab (fun _ ha hb => h.servePlace ha hb) (fun _ ha hb => hfirst.servePlace ha hb)
    fun _ ha hb => hsecond.servePlace ha hb

/-! ## What a take leaves to the requests that come after it -/

section
variable {y : State} {c m : Nat} {q q' : Cue} {src : Source} {p : Fin 9}

/-- A request for another cue, or one that layers, outside the group of the voice taken, stays admitted. -/
theorem Takes.admitted (h : Takes s y v c q src p) (hrec : s.record c = .present q) (hm : Admitted s m q')
    (hcue : m ≠ c ∨ q'.retrigger = .layer) (hgroup : q'.group = 0 ∨ q'.group ≠ q.group) : Admitted y m q' := by
  have hframe := h.frame
  have hrecord : y.record c = .present q := (congrArg (fun t => t.record c) hframe :).trans hrec
  refine hm.transfer (fun u ho => ?_) (congrArg State.cues hframe :) (congrArg State.mode hframe :) (congrArg State.cfg hframe :)
    (fun g => (congrArg (fun t => t.armed g) hframe :)) fun g => (congrArg (fun t => t.holder g) hframe :)
  by_cases huv : u = v
  · subst huv
    have hown : (y.voice u).cue = c := h.voice.cue
    have hcueOf : y.cueOf (y.voice u) = q := by
      unfold State.cueOf
      rw [hown, State.present?_of_record hrecord]
      rfl
    rw [hown, hcueOf]
    exact .inr ⟨hcue.imp_left Ne.symm, fun hq => (hgroup.resolve_left hq).symm⟩
  · rw [(h.others u huv).state] at ho
    have hrest := (h.others u huv).rest
    exact .inl ⟨ho, by rw [hrest]⟩

/-- The only FREE voice taken, none is left. -/
theorem Takes.busy (h : Takes s y v c q src p) (hu : ∀ u, u ≠ v → (s.voice u).state ≠ .free) (u : Fin 8) :
    (y.voice u).state ≠ .free := fun hf => by
  by_cases huv : u = v
  · rw [huv, h.voice.state] at hf
    cases hf
  · exact hu u huv ((h.others u huv).state.symm.trans hf)

/-- A cut that was in progress still is. -/
theorem Takes.cut (h : Takes s y v c q src p) (hv : (s.voice v).state = .free)
    (hcut : ∃ u ∈ s.releasing, (s.voice u).state = .releasing ∧ (s.voice u).rate = some .cut) :
    ∃ u ∈ y.releasing, (y.voice u).state = .releasing ∧ (y.voice u).rate = some .cut := by
  obtain ⟨u, hmem, hs, hr⟩ := hcut
  have huv : u ≠ v := fun e => by
    rw [e, hv] at hs
    cases hs
  have hrate : (y.voice u).rate = (s.voice u).rate := by rw [(h.others u huv).rest]
  have hreleasing : y.releasing = s.releasing := (congrArg State.releasing h.frame :)
  exact ⟨u, hreleasing ▸ hmem, (h.others u huv).state.trans hs, hrate.trans hr⟩

end

/-- Of two lines whose requests meet one FREE voice with a cut in progress, the first in the serving order takes it and the other waits
(R36, R41, R42). -/
theorem AtMostTwo.servePass_contended {ra rb : Request} {qa qb : Cue} (h : AtMostTwo s a b)
    (hab : [a.castSucc, b.castSucc].Sublist s.servingOrder) (hne : a ≠ b) (hra : (s.line a).request = some ra)
    (hrb : (s.line b).request = some rb) (ha : Admitted s ra.cue qa) (hb : Admitted s rb.cue qb)
    (hg : s.groupMode qa.group ≠ .firstWins) (hcue : rb.cue ≠ ra.cue ∨ qb.retrigger = .layer)
    (hgroup : qb.group = 0 ∨ qb.group ≠ qa.group) (hv : (s.voice v).state = .free) (hu : ∀ u, u ≠ v → (s.voice u).state ≠ .free)
    (he : s.cfg.expiry ≠ 0) (hcut : ∃ u ∈ s.releasing, (s.voice u).state = .releasing ∧ (s.voice u).rate = some .cut) :
    Served s s.servePass a ra.cue v ∧ (s.servePass.line b).request = some rb ∧ s.servePass.passesDue = s.passesDue := by
  have hlowest : LowestFree s v := ⟨hv, fun u hlt => hu u hlt.ne⟩
  have htakes : Takes s (s.take v ra.cue (.line a)) v ra.cue qa (.line a) a.castSucc := State.take_takes ha.record hg rfl
  have hserve := State.serveLine_of_leaves hra ((ha.decideRequest ra.latched (.line a)).trans (hlowest.stepVoice _ _))
  have hframe := htakes.frame
  generalize hy : s.take v ra.cue (.line a) = y at htakes hframe hserve
  have hlines : ∀ n, (y.line n).request = (s.line n).request := fun n => by
    have hl : y.lines = s.lines := (congrArg State.lines hframe :)
    unfold State.line
    rw [hl]
  have hserved : Served s (y.clearRequest a) a ra.cue v :=
    ⟨htakes.voice, (State.clearRequest_line a).trans (if_pos rfl),
      (congrArg (fun t => t.outcomes.get a.castSucc) hframe :).trans (Table.get_set_self _ _ _), (congrArg State.pointer hframe :)⟩
  have hwaits : ((y.clearRequest a).line b).request = some rb :=
    (State.clearRequest_line b).trans ((if_neg hne).trans ((hlines b).trans hrb))
  have hpasses : (y.clearRequest a).passesDue = s.passesDue := (congrArg State.passesDue hframe :)
  have hexpiry : (y.clearRequest a).cfg.expiry ≠ 0 :=
    fun h0 => he ((congrArg (fun t => t.cfg.expiry) hframe :).symm.trans h0)
  have hadm : Admitted (y.clearRequest a) rb.cue qb := (htakes.admitted ha.record hb hcue hgroup).congr
  have hcut' : ∃ u ∈ (y.clearRequest a).releasing,
      ((y.clearRequest a).voice u).state = .releasing ∧ ((y.clearRequest a).voice u).rate = some .cut := htakes.cut hv hcut
  have hstep := State.stepVoice_waits (s := y.clearRequest a) (.line b) (htakes.busy hu) hexpiry hadm.record
  rw [State.stealFor_of_cut hcut'] at hstep
  have hstays := State.serveLine_of_stays hwaits ((hadm.decideRequest rb.latched (.line b)).trans hstep)
  rw [h.servePass hab, hserve, hstays]
  exact ⟨hserved, hwaits, hpasses⟩

/-- The pass of an ARM over two lines that meet one FREE voice (R36, R41, R42, R74). -/
theorem armServesTheFirst :
    ∀ (s base : State) (sender : Sender) (set : GroupSet) (a b : Fin 8) (ra rb : Request) (qa qb : Cue) (v : Fin 8),
    Completes s sender (.arm set) base →
    let turn := fun n : Fin 8 => if s.cfg.rotating = true then (n.val + 9 - s.pointer.val) % 9 else n.val
    let armed :=
      { base with groups := s.groups.mapIdx fun i g => { g with armed := g.armed || set.getLsbD (i + 1) } }
    (∃ i : Fin 15, set.getLsbD (i.val + 1) = true ∧ (s.groups.get i).armed = false) →
    (s.line a).request = some ra → (s.line b).request = some rb → (∀ n, n ≠ a → n ≠ b → (s.line n).request = none) →
    s.remote = [] → s.passesDue = 0 → turn a < turn b →
    Admitted armed ra.cue qa → Admitted armed rb.cue qb → s.groupMode qa.group ≠ .firstWins →
    rb.cue ≠ ra.cue ∨ qb.retrigger = .layer → qb.group = 0 ∨ qb.group ≠ qa.group →
    (s.voice v).state = .free → (∀ u, u ≠ v → (s.voice u).state ≠ .free) → s.cfg.expiry ≠ 0 →
    (∃ u ∈ s.releasing, (s.voice u).state = .releasing ∧ (s.voice u).rate = some .cut) →
    ∃ t, exec (.arm sender set) s = .next t ∧ Served armed t a ra.cue v ∧ (t.line b).request = some rb := by
  intro s base sender set a b ra rb qa qb v h turn armed ⟨i, hi, hdisarmed⟩ hra hrb hothers hremote hpasses hturn ha hb hg hcue hgroup hv
    hu he hcut
  have hexec := h.exec_arm
  have harmed : base.withArmed set = armed := by
    unfold State.withArmed
    rw [h.groups]
  have hchanges : base.armingChanges set true = true :=
    (State.armingChanges_iff true).mpr ⟨i, hi, by rw [h.groups, hdisarmed]; exact Bool.false_ne_true⟩
  rw [State.armGroups_eq, if_pos hchanges, harmed] at hexec
  obtain ⟨q, tx, rx, ic, ec, r, fl, hbase⟩ := h.eq_with
  have hframe : armed = { s with
      queue := q, tx := tx, rx := rx, idleCount := ic, echoed := ec, received := r, flags := fl, groups := armed.groups } := by
    simp only [armed]
    rw [hbase]
  generalize armed = u at hexec ha hb hframe ⊢
  have hsublist : [a.castSucc, b.castSucc].Sublist u.servingOrder := by
    have horder : u.servingOrder = placesFrom (if s.cfg.rotating then s.pointer else 0) := by rw [hframe]; rfl
    rw [horder]
    apply placesFrom_sublist
    simp only [turn] at hturn
    split
    next hrot =>
      rw [if_pos hrot, if_pos hrot] at hturn
      exact hturn
    next hrot =>
      rw [if_neg hrot, if_neg hrot] at hturn
      have ha8 := a.isLt
      have hb8 := b.isLt
      rw [Fin.val_zero]
      omega
  have hne : a ≠ b := fun e => by
    rw [e] at hturn
    exact Nat.lt_irrefl _ hturn
  have hfacts : AtMostTwo u a b ∧ (u.line a).request = some ra ∧ (u.line b).request = some rb ∧
      u.groupMode qa.group ≠ .firstWins ∧ (u.voice v).state = .free ∧ (∀ x, x ≠ v → (u.voice x).state ≠ .free) ∧
      u.cfg.expiry ≠ 0 ∧ (∃ x ∈ u.releasing, (u.voice x).state = .releasing ∧ (u.voice x).rate = some .cut) ∧ u.passesDue = 0 := by
    rw [hframe]
    exact ⟨⟨hothers, hremote⟩, hra, hrb, hg, hv, hu, he, hcut, hpasses⟩
  obtain ⟨htwo, hra', hrb', hg', hv', hu', he', hcut', hdue⟩ := hfacts
  obtain ⟨hserved, hwaits, hkept⟩ := htwo.servePass_contended hsublist hne hra' hrb' ha hb hg' hcue hgroup hv' hu' he' hcut'
  rw [State.runPass_eq hdue (hkept.trans hdue)] at hexec
  exact ⟨_, hexec, hserved, hwaits⟩

end Sys2Proof.Machine
end
section
/-! PROOF. A RELEASE frame in the queue: what the freeing of voices and the placing of frames do to it (R73, R88, R90, R148). -/

namespace Sys2Proof.Machine

set_option Elab.async false

variable {s t u : State} {v : Fin 8} {J : Fin 15 → Bool}

/-- A RELEASE for group g is in the queue. -/
abbrev State.hasRelease (s : State) (g : Nat) : Prop := s.hasFrame (Frame.isReleaseOf g) = true

/-- The groups of J whose RELEASE is not in the queue. -/
def State.unreleased (s : State) (J : Fin 15 → Bool) : List (Fin 15) :=
  groupPlaces.filter fun j => J j && !s.hasFrame (Frame.isReleaseOf (j.val + 1))

/-- The station holds the group of place j, or a voice of it does. -/
def State.holdsPlace (s : State) (j : Fin 15) : Bool :=
  decide ((s.groups.get j).holder = some s.cfg.number) || (s.groups.get j).holdingVoice.isSome

/-- The queue has room for a RELEASE of each group of J, and nothing else will be queued: no voice is announced, and no other
group is held. -/
structure RoomFor (J : Fin 15 → Bool) (s : State) : Prop where
  quiet : ∀ v, (s.voice v).announce = .localOnly
  held : ∀ j, s.holdsPlace j = true → J j = true
  room : s.queue.length + (s.unreleased J).length ≤ Config.queueSize

/-- From s to t a RELEASE has only left the queue with TXQ_DROP latched, and has not where the queue had room for all. -/
structure KeepsReleases (s t : State) : Prop where
  flag : s.flag .txqDrop = true → t.flag .txqDrop = true
  kept : ∀ g, s.hasRelease g → t.hasRelease g ∨ t.flag .txqDrop = true
  room : ∀ J, RoomFor J s → RoomFor J t ∧ ∀ g, s.hasRelease g → t.hasRelease g

theorem KeepsReleases.trans (h : KeepsReleases s t) (k : KeepsReleases t u) : KeepsReleases s u where
  flag := k.flag ∘ h.flag
  kept := fun g hg => (h.kept g hg).elim (k.kept g) fun hf => .inr (k.flag hf)
  room := fun J hJ => by
    obtain ⟨ht, hkept⟩ := h.room J hJ
    obtain ⟨hu, kkept⟩ := k.room J ht
    exact ⟨hu, fun g hg => kkept g (hkept g hg)⟩

theorem State.unreleased_sublist (h : ∀ g, s.hasRelease g → t.hasRelease g) : (t.unreleased J).Sublist (s.unreleased J) := by
  refine List.monotone_filter_right _ fun j hj => ?_
  rw [Bool.and_eq_true, Bool.not_eq_true', Bool.eq_false_iff] at hj ⊢
  exact ⟨hj.1, fun hs => hj.2 (h _ hs)⟩

/-- A RELEASE enters the queue of a state that had none for the group. -/
theorem State.unreleased_lt {j : Fin 15} (hj : J j = true) (hs : ¬s.hasRelease (j.val + 1)) (ht : t.hasRelease (j.val + 1))
    (h : ∀ g, s.hasRelease g → t.hasRelease g) : (t.unreleased J).length < (s.unreleased J).length := by
  have hsub := State.unreleased_sublist (J := J) h
  refine lt_of_le_of_ne hsub.length_le fun he => ?_
  have hmem : j ∈ s.unreleased J :=
    List.mem_filter.mpr ⟨mem_groupPlaces j, by rw [hj, Bool.eq_false_iff.mpr hs]; rfl⟩
  rw [← hsub.eq_of_length he] at hmem
  have hno := (List.mem_filter.mp hmem).2
  rw [hj, ht] at hno
  cases hno

/-- Frames that are no RELEASE leave the queue, announced voices cease to be, and groups lose their holding voices. -/
theorem KeepsReleases.of_queue (flags : t.flags = s.flags) (queue : t.queue.Sublist s.queue)
    (kept : ∀ g, t.hasFrame (Frame.isReleaseOf g) = s.hasFrame (Frame.isReleaseOf g))
    (announce : ∀ v, (s.voice v).announce = .localOnly → (t.voice v).announce = .localOnly)
    (held : ∀ j, t.holdsPlace j = true → s.holdsPlace j = true) : KeepsReleases s t where
  flag := fun hf => by unfold State.flag at hf ⊢; rw [flags]; exact hf
  kept := fun g hg => .inl ((kept g).trans hg)
  room := fun J hJ => by
    have hkept : ∀ g, s.hasRelease g → t.hasRelease g := fun g => (kept g).trans
    refine ⟨⟨fun v => announce v (hJ.quiet v), fun j hj => hJ.held j (held j hj), ?_⟩, hkept⟩
    exact (Nat.add_le_add queue.length_le (State.unreleased_sublist hkept).length_le).trans hJ.room

/-- A change of nothing that `KeepsReleases` speaks of. -/
theorem KeepsReleases.of_same (flags : t.flags = s.flags := by rfl) (queue : t.queue = s.queue := by rfl)
    (voices : t.voices = s.voices := by rfl) (groups : t.groups = s.groups := by rfl) (cfg : t.cfg = s.cfg := by rfl) :
    KeepsReleases s t :=
  .of_queue flags (queue ▸ List.Sublist.refl _) (fun g => by unfold State.hasFrame; rw [queue])
    (fun v h => by unfold State.voice at h ⊢; rw [voices]; exact h) fun j h => by
      unfold State.holdsPlace at h ⊢
      rw [← groups, ← cfg]
      exact h

theorem KeepsReleases.refl (s : State) : KeepsReleases s s := .of_same

theorem hasFrame_takeOut_of_not {p q : Frame → Bool} (hpq : ∀ f, q f = true → p f = false) (s : State) :
    (s.takeOut p).hasFrame q = s.hasFrame q := by
  unfold State.hasFrame
  rw [State.takeOut_queue, List.any_filter]
  refine List.any_congr rfl fun e => ?_
  cases hq : q e.frame with
  | false => exact Bool.and_false _
  | true =>
    rw [hpq _ hq, Bool.and_false]
    rfl

theorem takeOut_keepsReleases {p : Frame → Bool} (hp : ∀ f g, Frame.isReleaseOf g f = true → p f = false) (s : State) :
    KeepsReleases s (s.takeOut p) :=
  .of_queue rfl List.filter_sublist (fun g => hasFrame_takeOut_of_not (fun f => hp f g) s) (fun _ => id) fun _ => id

theorem hasFrame_placeEntry (e : Entry) (s : State) (p : Frame → Bool) :
    { s with queue := placeEntry e s.queue }.hasFrame p = (p e.frame || s.hasFrame p) := by
  unfold State.hasFrame
  rw [(placeEntry_perm e s.queue).any_eq]
  rfl

/-- Placing a frame: the frames in the queue stay there, or TXQ_DROP is latched. -/
theorem place_hasFrame (f : Frame) (key : Nat) (p : Frame → Bool) (h : p f = true ∨ s.hasFrame p = true) :
    (s.place f key).1.hasFrame p = true ∨ (s.place f key).1.flag .txqDrop = true := by
  obtain ⟨-, e⟩ | ⟨-, x, -, e⟩ | ⟨-, -, e⟩ := place_cases (s := s) f key <;> rw [e]
  · refine .inl ?_
    dsimp only
    rw [hasFrame_placeEntry]
    exact Bool.or_eq_true _ _ ▸ h
  · obtain ⟨vs, hvs⟩ := evicted_eq
      (s := { s with queue := placeEntry (newEntry f key) (dropLastWaiting s.queue) }.latch .txqDrop) x.frame
    exact .inr ((congrArg (fun t => t.flag .txqDrop) hvs :).trans (State.flag_latch_self _ _))
  · exact .inr (State.flag_latch_self _ _)

/-! ## GRP queues a RELEASE (R73, R88, R90) -/

theorem isReleaseOf_ofNat (j : Fin 15) : Frame.isReleaseOf (j.val + 1) (.release (BitVec.ofNat 8 (j.val + 1))) = true := by
  have h : (BitVec.ofNat 8 (j.val + 1)).toNat = j.val + 1 := by
    rw [BitVec.toNat_ofNat]
    have := j.isLt
    omega
  exact beq_iff_eq.mpr h

/-- A RELEASE for the group of place j is queued, unless one is in the queue. -/
theorem State.queueRelease_eq (hrun : s.mode = .run) (j : Fin 15) :
    s.hasRelease (j.val + 1) ∧ s.queueRelease (j.val + 1) = s ∨
      ¬s.hasRelease (j.val + 1) ∧
        s.queueRelease (j.val + 1) = (s.place (.release (BitVec.ofNat 8 (j.val + 1))) s.cfg.number).1 := by
  unfold State.queueRelease State.hasRelease
  rw [State.isRun, decide_eq_true hrun]
  cases h : s.hasFrame (Frame.isReleaseOf (j.val + 1)) with
  | true => exact .inl ⟨rfl, rfl⟩
  | false => exact .inr ⟨Bool.false_ne_true, rfl⟩

/-- Where the queue has room for the RELEASEs of J, one of them is placed as in any queue with room. -/
theorem RoomFor.place_release (h : RoomFor J s) {j : Fin 15} (hj : J j = true) (hno : ¬s.hasRelease (j.val + 1)) :
    RoomFor J (s.place (.release (BitVec.ofNat 8 (j.val + 1))) s.cfg.number).1 ∧
      ∀ g, s.hasRelease g ∨ g = j.val + 1 → (s.place (.release (BitVec.ofNat 8 (j.val + 1))) s.cfg.number).1.hasRelease g := by
  have hmem : j ∈ s.unreleased J := List.mem_filter.mpr ⟨mem_groupPlaces j, by rw [hj, Bool.eq_false_iff.mpr hno]; rfl⟩
  have hpos := List.length_pos_of_mem hmem
  have hroom : s.hasRoom := by
    have := h.room
    unfold State.hasRoom
    omega
  rw [place_of_room _ _ hroom]
  dsimp only
  generalize hf : newEntry (.release (BitVec.ofNat 8 (j.val + 1))) s.cfg.number = e
  have hkept : ∀ g, s.hasRelease g ∨ g = j.val + 1 → { s with queue := placeEntry e s.queue }.hasRelease g := fun g hg => by
    rw [State.hasRelease, hasFrame_placeEntry, Bool.or_eq_true]
    exact hg.symm.imp (fun hg => by rw [hg, ← hf]; exact isReleaseOf_ofNat j) id
  have hless := State.unreleased_lt hj hno (hkept _ (.inr rfl)) fun g hg => hkept g (.inl hg)
  refine ⟨⟨h.quiet, h.held, ?_⟩, hkept⟩
  have := h.room
  have hlength := placeEntry_length e s.queue
  dsimp only
  omega

theorem State.queueRelease_hasRelease (hrun : s.mode = .run) (j : Fin 15) :
    ((s.queueRelease (j.val + 1)).hasRelease (j.val + 1) ∨ (s.queueRelease (j.val + 1)).flag .txqDrop = true) ∧
      (J j = true → RoomFor J s → (s.queueRelease (j.val + 1)).hasRelease (j.val + 1)) := by
  rcases State.queueRelease_eq hrun j with ⟨hs, he⟩ | ⟨hs, he⟩ <;> rw [he]
  · exact ⟨.inl hs, fun _ _ => hs⟩
  · exact ⟨place_hasFrame _ _ _ (.inl (isReleaseOf_ofNat j)), fun hj h => (h.place_release hj hs).2 _ (.inr rfl)⟩

/-- GRP queues a RELEASE for a group that was held. -/
theorem KeepsReleases.queueRelease (h : KeepsReleases s t) {j : Fin 15} (hj : ∀ J, RoomFor J s → J j = true) :
    KeepsReleases s (t.queueRelease (j.val + 1)) := by
  by_cases hrun : t.mode = .run
  · rcases State.queueRelease_eq hrun j with ⟨ht, he⟩ | ⟨ht, he⟩ <;> rw [he]
    · exact h
    · have hflag : t.flag .txqDrop = true → (t.place (.release (BitVec.ofNat 8 (j.val + 1))) t.cfg.number).1.flag .txqDrop = true :=
        ((Eases.refl t).place _ _).flag _
      refine ⟨hflag ∘ h.flag, fun g hg => (h.kept g hg).elim (fun hg => place_hasFrame _ _ _ (.inr hg)) (.inr ∘ hflag), fun J hJ => ?_⟩
      obtain ⟨hroom, hkept⟩ := h.room J hJ
      obtain ⟨hroom', hkept'⟩ := hroom.place_release (hj J hJ) ht
      exact ⟨hroom', fun g hg => hkept' g (.inl (hkept g hg))⟩
  · rw [(queueRelease_spec t (j.val + 1)).1 (.inl hrun)]
    exact h

/-! ## A voice that enters FREE -/

theorem dropHolding_keepsReleases (s : State) (v : Fin 8) (tag : Nat) (j : Fin 15) : KeepsReleases s (s.dropHolding v tag j) := by
  by_cases hh : (s.groups.get j).holdingVoice = some (v, tag)
  · have hset : KeepsReleases s (s.setGroup j { s.groups.get j with holdingVoice := none }) :=
      .of_queue rfl (List.Sublist.refl _) (fun _ => rfl) (fun _ => id) fun i hi => by
        unfold State.holdsPlace at hi ⊢
        rw [State.setGroup_groups, State.setGroup_cfg] at hi
        by_cases hij : j = i
        · subst hij
          rw [Table.get_set_self, Option.isSome_none, Bool.or_false] at hi
          rw [hi, Bool.true_or]
        · rwa [Table.get_set_ne _ _ hij] at hi
    have hdrop : s.dropHolding v tag j = if (s.cfg.groups.get j).manual then s.setGroup j { s.groups.get j with holdingVoice := none }
        else (s.setGroup j { s.groups.get j with holdingVoice := none }).queueRelease (j.val + 1) := if_pos hh
    rw [hdrop]
    split
    · exact hset
    · exact hset.queueRelease fun J hJ => hJ.held j (by simp [State.holdsPlace, hh])
  · rw [dropHolding_of_not hh]
    exact KeepsReleases.refl s

theorem offer_end_hasRelease (t g : Byte) {n : Nat} (h : s.hasRelease n) :
    (s.offer (.endFrame t g)).hasRelease n ∨ (s.offer (.endFrame t g)).flag .txqDrop = true := by
  unfold State.offer State.offerKey
  dsimp only
  split
  · refine .inl ((hasFrame_takeOut_of_not (fun f hf => ?_) s).trans h)
    cases f <;> first | rfl | cases hf
  · exact place_hasFrame _ _ _ (.inr h)

theorem settleAnnounce_hasRelease (a : Announce) (tag group : Nat) {n : Nat} (h : s.hasRelease n) :
    (s.settleAnnounce a tag group).hasRelease n ∨ (s.settleAnnounce a tag group).flag .txqDrop = true := by
  unfold State.settleAnnounce
  cases a with
  | localOnly => exact .inl h
  | announced _ =>
    dsimp only
    split
    · exact .inl h
    · split
      · exact .inl h
      · exact offer_end_hasRelease _ _ h
  | queued =>
    dsimp only
    split
    · exact .inl h
    · split
      · exact offer_end_hasRelease _ _ h
      · exact .inl h

theorem withFreed_keepsReleases (s : State) (v : Fin 8) : KeepsReleases s (s.withFreed v) := by
  have hvoice : ∀ u, (s.withFreed v).voice u = if v = u then Voice.freed (s.voice v).generation else s.voice u :=
    fun u => s.withFreed_voice u v
  have hsame : (s.withFreed v).groups = s.groups ∧ (s.withFreed v).queue = s.queue ∧ (s.withFreed v).flags = s.flags ∧
      (s.withFreed v).cfg = s.cfg := by
    unfold State.withFreed State.clearOwedFor
    split <;> exact ⟨rfl, rfl, rfl, rfl⟩
  obtain ⟨hgroups, hqueue, hflags, hcfg⟩ := hsame
  refine .of_queue hflags (hqueue ▸ List.Sublist.refl _) (fun g => by unfold State.hasFrame; rw [hqueue]) (fun u hu => ?_) fun j hj => ?_
  · rw [hvoice]
    split
    · rfl
    · exact hu
  · unfold State.holdsPlace at hj ⊢
    rwa [hgroups, hcfg] at hj

theorem freedSettled_keepsReleases (s : State) (v : Fin 8) : KeepsReleases s (s.freedSettled v) := by
  have h := withFreed_keepsReleases s v
  have hflag : (s.withFreed v).flag .txqDrop = true → (s.freedSettled v).flag .txqDrop = true :=
    ((Eases.refl (s.withFreed v)).settleAnnounce _ _ _).flag _
  refine ⟨hflag ∘ h.flag, fun g hg => (h.kept g hg).elim (settleAnnounce_hasRelease _ _ _) (.inr ∘ hflag), fun J hJ => ?_⟩
  have hquiet : s.freedSettled v = s.withFreed v := by
    unfold State.freedSettled
    rw [hJ.quiet v]
    rfl
  rw [hquiet]
  exact h.room J hJ

theorem freedLeft_keepsReleases (s : State) (v : Fin 8) : KeepsReleases s (s.freedLeft v) :=
  inOrder_keeps (P := KeepsReleases s) (fun j t ht => ht.trans (dropHolding_keepsReleases t v _ j)) groupPlaces
    (freedSettled_keepsReleases s v)

end Sys2Proof.Machine
end
section
/-! PROOF. Withdrawals and releases where no request is pending: what they do with one voice and leave of all else (R35, R53, R57 to R59,
R63, R70, R75). -/

namespace Sys2Proof.Machine

set_option Elab.async false

variable {s t u : State} {v : Fin 8} {o : RequestOutcome} {A B : Fin 8 → Prop}

/-! ## The CLAIMs of one group -/

/-- The CLAIM entries for group g of a queue, in its order. -/
def claimsOf (g : Nat) (q : List Entry) : List Entry := q.filter fun e => e.frame.isClaimOf g

theorem claimsOf_eq_filter (g : Nat) (q : List Entry) : claimsOf g q = (claimsIn q).filter fun e => e.frame.isClaimOf g := by
  unfold claimsOf claimsIn
  rw [List.filter_filter]
  apply List.filter_congr
  intro e _
  cases hc : e.frame.isClaimOf g with
  | false => rfl
  | true => rw [isClaim_of_isClaimOf hc]; rfl

theorem claimsOf_congr {q q' : List Entry} (h : claimsIn q' = claimsIn q) (g : Nat) : claimsOf g q' = claimsOf g q := by
  rw [claimsOf_eq_filter, claimsOf_eq_filter, h]

theorem State.hasWaiting_claim (s : State) (g : Nat) :
    s.hasWaiting (Frame.isClaimOf g) = (claimsOf g s.queue).any fun e => e.waiting := by
  unfold State.hasWaiting claimsOf
  rw [List.any_filter]
  exact List.any_congr rfl fun e => Bool.and_comm _ _

theorem State.hasFlying_claim (s : State) (g : Nat) :
    s.hasFlying (Frame.isClaimOf g) = (claimsOf g s.queue).any fun e => e.inFlight := by
  unfold State.hasFlying claimsOf
  rw [List.any_filter]
  exact List.any_congr rfl fun e => Bool.and_comm _ _

theorem State.hasFrame_claim (s : State) (g : Nat) (h : claimsOf g s.queue = []) : s.hasFrame (Frame.isClaimOf g) = false := by
  unfold State.hasFrame
  rw [List.any_eq_false]
  exact fun e he => List.filter_eq_nil_iff.mp h e he

/-- Taking the CLAIM of one group out leaves those of the others. -/
theorem claimsOf_takeOut_ne {g g' : Nat} (h : g' ≠ g) (s : State) :
    claimsOf g' (s.takeOut (Frame.isClaimOf g)).queue = claimsOf g' s.queue := by
  unfold claimsOf
  rw [State.takeOut_queue, List.filter_filter]
  apply List.filter_congr
  intro e _
  cases hc : e.frame.isClaimOf g' with
  | false => rfl
  | true =>
    have hno : e.frame.isClaimOf g = false := by
      cases hf : e.frame with
      | claim group _ =>
        rw [hf] at hc
        exact beq_false_of_ne fun e => h ((beq_iff_eq.mp hc).symm.trans e)
      | _ => rfl
    rw [hno, Bool.and_false]
    rfl

/-- Where no CLAIM of the group is being sent, taking it out leaves none. -/
theorem claimsOf_takeOut_self {g : Nat} (h : s.hasFlying (Frame.isClaimOf g) = false) :
    claimsOf g (s.takeOut (Frame.isClaimOf g)).queue = [] := by
  rw [takeOut_of_not_flying h]
  unfold claimsOf
  rw [List.filter_filter, List.filter_eq_nil_iff]
  intro e _ hc
  rw [Bool.and_eq_true, Bool.not_eq_true'] at hc
  exact Bool.false_ne_true (hc.2.symm.trans hc.1)

/-! ## What acting on some voices leaves -/

/-- From s to t voices that A picks have been stopped or withdrawn, where no request is pending: a claimed request ends with outcome o, the
other voices are untouched, a CLAIM leaves only with an A voice that claims its group, and a group changes in its holding voice only. -/
structure Stops (o : RequestOutcome) (A : Fin 8 → Prop) (s t : State) : Prop where
  cfg : t.cfg = s.cfg
  mode : t.mode = s.mode
  cues : t.cues = s.cues
  requests : ∀ m, (t.line m).request = (s.line m).request
  remote : t.remote = s.remote
  passes : t.passesDue = s.passesDue
  outcome : ∀ p, t.outcomes.get p = s.outcomes.get p ∨ t.outcomes.get p = some o
  others : ∀ u, ¬A u → Untouched (s.voice u) (t.voice u)
  free : ∀ u g, ¬A u → s.voice u = Voice.freed g → t.voice u = Voice.freed g
  claiming : ∀ u, (t.voice u).state = .claiming → (s.voice u).state = .claiming ∧ (t.voice u).cue = (s.voice u).cue
  claims : ∀ g, (∀ a, A a → (s.voice a).state = .claiming → (s.cueOf (s.voice a)).group ≠ g) →
    claimsOf g t.queue = claimsOf g s.queue
  flying : ∀ g, s.hasFlying (Frame.isClaimOf g) = false → t.hasFlying (Frame.isClaimOf g) = false
  releases : KeepsReleases s t
  view : ∀ i, t.groups.get i = s.groups.get i ∨ t.groups.get i = { s.groups.get i with holdingVoice := none }

theorem Stops.of_same (cfg : t.cfg = s.cfg := by rfl) (mode : t.mode = s.mode := by rfl) (cues : t.cues = s.cues := by rfl)
    (flags : t.flags = s.flags := by rfl) (requests : ∀ m, (t.line m).request = (s.line m).request := by exact fun _ => rfl)
    (remote : t.remote = s.remote := by rfl) (passes : t.passesDue = s.passesDue := by rfl)
    (outcomes : t.outcomes = s.outcomes := by rfl) (voices : t.voices = s.voices := by rfl) (queue : t.queue = s.queue := by rfl)
    (groups : t.groups = s.groups := by rfl) : Stops o A s t where
  cfg := cfg
  mode := mode
  cues := cues
  requests := requests
  remote := remote
  passes := passes
  outcome := fun p => .inl (by rw [outcomes])
  others := fun v _ => by unfold State.voice; rw [voices]; exact Untouched.refl _
  free := fun v g _ h => by unfold State.voice at h ⊢; rw [voices]; exact h
  claiming := fun v h => by unfold State.voice at h ⊢; rw [voices] at h ⊢; exact ⟨h, rfl⟩
  claims := fun g _ => by rw [queue]
  flying := fun g h => by unfold State.hasFlying at h ⊢; rw [queue]; exact h
  releases := .of_same flags queue voices groups cfg
  view := fun i => .inl (by rw [groups])

theorem Stops.refl (s : State) : Stops o A s s := Stops.of_same

theorem cueOf_congr (cues : t.cues = s.cues) {w x : Voice} (h : w.cue = x.cue) : t.cueOf w = s.cueOf x := by
  unfold State.cueOf State.present? State.record
  rw [cues, h]

theorem Stops.trans (h : Stops o A s t) (k : Stops o A t u) : Stops o A s u where
  cfg := k.cfg.trans h.cfg
  mode := k.mode.trans h.mode
  cues := k.cues.trans h.cues
  requests := fun m => (k.requests m).trans (h.requests m)
  remote := k.remote.trans h.remote
  passes := k.passes.trans h.passes
  outcome := fun p => (k.outcome p).elim (fun e => e ▸ h.outcome p) .inr
  others := fun v hv => (h.others v hv).trans (k.others v hv)
  free := fun v g hv hs => k.free v g hv (h.free v g hv hs)
  claiming := fun v hv => by
    obtain ⟨ht, hc⟩ := k.claiming v hv
    obtain ⟨hs, hc'⟩ := h.claiming v ht
    exact ⟨hs, hc.trans hc'⟩
  claims := fun g hg => by
    refine (k.claims g fun a ha hc => ?_).trans (h.claims g hg)
    obtain ⟨hs, hcue⟩ := h.claiming a hc
    rw [cueOf_congr h.cues hcue]
    exact hg a ha hs
  flying := fun g => k.flying g ∘ h.flying g
  releases := h.releases.trans k.releases
  view := fun i => by
    rcases k.view i with hk | hk <;> rw [hk]
    · exact h.view i
    · rcases h.view i with hh | hh <;> rw [hh] <;> exact .inr rfl

theorem Stops.mono (h : Stops o A s t) (hAB : ∀ u, A u → B u) : Stops o B s t :=
  { h with
    others := fun v hv => h.others v fun ha => hv (hAB v ha)
    free := fun v g hv => h.free v g fun ha => hv (hAB v ha)
    claims := fun g hg => h.claims g fun a ha => hg a (hAB a ha) }

theorem NoRequests.of_stops (h : NoRequests s) (k : Stops o A s t) : NoRequests t :=
  ⟨fun m => (k.requests m).trans (h.lines m), k.remote.trans h.remote, k.passes.trans h.passes⟩

/-- What acts on one voice that is not CLAIMING, and on its groups. -/
theorem Stops.of_acts (h : ActsOnly 0 (· = v) s t) (hv : (s.voice v).state ≠ .claiming) (hcfg : t.cfg = s.cfg) (hmode : t.mode = s.mode)
    (ho : t.outcomes = s.outcomes) (hreleases : KeepsReleases s t)
    (hview : ∀ i, t.groups.get i = s.groups.get i ∨ t.groups.get i = { s.groups.get i with holdingVoice := none }) :
    Stops o (· = v) s t where
  cfg := hcfg
  mode := hmode
  cues := h.cues
  requests := fun m => by rw [h.lines m]
  remote := h.remote
  passes := h.passes
  outcome := fun p => .inl (by rw [ho])
  others := h.others
  free := h.free
  claiming := fun u hu => by
    have hs := h.claiming u hu
    have hne : u ≠ v := fun e => hv (e ▸ hs)
    exact ⟨hs, by rw [(h.others u hne).rest]⟩
  claims := fun g _ => claimsOf_congr (h.quiet fun a ha => ha ▸ hv).1 g
  flying := fun g hg => (State.hasFlying_of_claims (h.quiet fun a ha => ha ▸ hv).1 g).trans hg
  releases := hreleases
  view := hview

/-! ## A voice that enters FREE -/

theorem State.withFreed_same (s : State) (v : Fin 8) :
    (s.withFreed v).groups = s.groups ∧ (s.withFreed v).queue = s.queue ∧ (s.withFreed v).outcomes = s.outcomes ∧
      (s.withFreed v).flags = s.flags ∧ (s.withFreed v).cfg = s.cfg ∧ (s.withFreed v).mode = s.mode := by
  unfold State.withFreed State.clearOwedFor
  split <;> exact ⟨rfl, rfl, rfl, rfl, rfl, rfl⟩

/-- A freed voice is the holding voice of no group, and leaves all else of the groups (R85). -/
theorem State.freedLeft_view (s : State) (v : Fin 8) (i : Fin 15) :
    (s.freedLeft v).groups.get i = s.groups.get i ∨
      (s.freedLeft v).groups.get i = { s.groups.get i with holdingVoice := none } := by
  have hgroups : (s.freedSettled v).groups = s.groups := (settleAnnounce_groups _ _ _ _).trans (s.withFreed_same v).1
  have hget := (inOrder_dropHolding v (s.tag v) groupPlaces (by decide) (s.freedSettled v)).1 i
  rw [hgroups] at hget
  unfold State.freedLeft
  rw [hget]
  split
  · exact .inr rfl
  · exact .inl rfl

theorem State.freedLeft_same (s : State) (v : Fin 8) :
    (s.freedLeft v).cfg = s.cfg ∧ (s.freedLeft v).mode = s.mode ∧ (s.freedLeft v).outcomes = s.outcomes := by
  obtain ⟨-, -, houtcomes, -, hcfg, hmode⟩ := s.withFreed_same v
  have hframe := (s.freedLeft_announces v).frame
  exact ⟨(congrArg State.cfg hframe :).trans hcfg, (congrArg State.mode hframe :).trans hmode,
    (congrArg State.outcomes hframe :).trans houtcomes⟩

theorem freedLeft_stops (hv : (s.voice v).state ≠ .claiming) : Stops o (· = v) s (s.freedLeft v) := by
  obtain ⟨hcfg, hmode, houtcomes⟩ := s.freedLeft_same v
  exact Stops.of_acts (freedLeft_acts rfl) hv hcfg hmode houtcomes (freedLeft_keepsReleases s v) (s.freedLeft_view v)

/-! ## A release (R57 to R59) -/

/-- From s to t only voices, the releasing list and the link have changed, and no announce state. -/
structure OnlyVoices (s t : State) : Prop where
  frame : t = { s with voices := t.voices, releasing := t.releasing, link := t.link }
  announce : ∀ u, (t.voice u).announce = (s.voice u).announce

theorem OnlyVoices.keepsReleases (h : OnlyVoices s t) : KeepsReleases s t := by
  have hqueue : t.queue = s.queue := (congrArg State.queue h.frame :)
  have hgroups : t.groups = s.groups := (congrArg State.groups h.frame :)
  have hcfg : t.cfg = s.cfg := (congrArg State.cfg h.frame :)
  refine .of_queue (congrArg State.flags h.frame :) (hqueue ▸ List.Sublist.refl _) (fun g => by unfold State.hasFrame; rw [hqueue])
    (fun v hv => (h.announce v).trans hv) fun j hj => ?_
  unfold State.holdsPlace at hj ⊢
  rwa [hgroups, hcfg] at hj

theorem OnlyVoices.refl (s : State) : OnlyVoices s s := ⟨rfl, fun _ => rfl⟩

theorem OnlyVoices.trans (h : OnlyVoices s t) (k : OnlyVoices t u) : OnlyVoices s u :=
  ⟨by rw [k.frame, h.frame], fun v => (k.announce v).trans (h.announce v)⟩

theorem setVoice_onlyVoices {w : Voice} (h : w.announce = (s.voice v).announce) : OnlyVoices s (s.setVoice v w) := by
  refine ⟨rfl, fun u => ?_⟩
  rw [State.voice_setVoice]
  split
  next e => exact e ▸ h
  · rfl

theorem joinReleasing_onlyVoices (s : State) (v : Fin 8) : OnlyVoices s (s.joinReleasing v) := ⟨rfl, fun _ => rfl⟩

theorem arbitrate_onlyVoices (s : State) : OnlyVoices s s.arbitrate := by
  have hvoice : ∀ u, SameButFetch (s.voice u) (s.arbitrate.voice u) := fun u => State.arbitrate_voice u
  obtain ⟨vs, k, he, -⟩ := s.arbitrate_eq
  generalize s.arbitrate = t at hvoice he
  refine ⟨by rw [he], fun u => ?_⟩
  have hu : SameButFetch (s.voice u) (t.voice u) := hvoice u
  rw [hu]

theorem beginTail_onlyVoices (s : State) (v : Fin 8) : OnlyVoices s (s.beginTail v) := by
  cases hm : (s.cueOf (s.voice v)).mode.tailEnd with
  | none =>
    have hsame : s.beginTail v = s := by
      unfold State.beginTail
      dsimp only
      rw [hm]
    rw [hsame]
    exact OnlyVoices.refl s
  | some last =>
    cases ht : (s.voice v).tail with
    | some x => rw [State.beginTail_of_tail ht]; exact OnlyVoices.refl s
    | none =>
      obtain ⟨k, hk, -⟩ := State.beginTail_eq hm ht
      have hlink : OnlyVoices s { s with link := k } := ⟨rfl, fun _ => rfl⟩
      rw [hk]
      refine (hlink.trans (setVoice_onlyVoices ?_)).trans (arbitrate_onlyVoices _)
      rw [Voice.tested_frame]
      rfl

/-- A release of one voice where no request is pending: the voice enters FREE, or only voices change. -/
theorem NoRequests.releaseVoice_cases (h : NoRequests s) (v : Fin 8) (r : Rate) :
    OnlyVoices s (s.releaseVoice v r).settlePasses ∨
      (s.voice v).state ≠ .claiming ∧ (s.releaseVoice v r).settlePasses = s.freedLeft v := by
  have hstays : ∀ t, OnlyVoices s t → OnlyVoices s t.settlePasses := fun t ht => by
    have hpasses : t.passesDue = 0 := (congrArg State.passesDue ht.frame :).trans h.passes
    rw [State.settlePasses_of_none hpasses]
    exact ht
  have hfrees : (s.voice v).state ≠ .claiming → (s.voice v).state ≠ .claiming ∧ (s.freeVoice v).settlePasses = s.freedLeft v :=
    fun hc => ⟨hc, h.freeVoice v⟩
  have hdown : ∀ r, OnlyVoices s (s.setVoice v ((s.voice v).runDown r)) := fun r => setVoice_onlyVoices rfl
  have hrun : OnlyVoices s ((s.setVoice v (s.voice v).runTail).joinReleasing v) :=
    (setVoice_onlyVoices (w := (s.voice v).runTail) rfl).trans
      (joinReleasing_onlyVoices (s.setVoice v (s.voice v).runTail) v)
  unfold State.releaseVoice
  dsimp only
  cases hs : (s.voice v).state with
  | free | claiming => exact .inl (hstays _ (OnlyVoices.refl s))
  | priming =>
    cases r with
    | tail => exact .inl (hstays _ (beginTail_onlyVoices s v))
    | fade | cut => exact .inr ⟨nofun, h.freeVoice v⟩
  | sounding =>
    match r with
    | .tail => exact .inl (hstays _ (hrun.trans (beginTail_onlyVoices _ v)))
    | .fade 0 => exact .inr ⟨nofun, h.freeVoice v⟩
    | .fade (k + 1) | .cut =>
      dsimp only
      split
      · exact .inr ⟨nofun, h.freeVoice v⟩
      · exact .inl (hstays _ ((hdown _).trans (joinReleasing_onlyVoices _ v)))
  | releasing =>
    dsimp only
    split
    · split
      · exact .inr ⟨nofun, h.freeVoice v⟩
      · exact .inl (hstays _ (hdown _))
    · exact .inl (hstays _ (OnlyVoices.refl s))

theorem NoRequests.releaseVoice_stops (h : NoRequests s) (hv : (s.voice v).state ≠ .claiming) (r : Rate) :
    Stops o (· = v) s (s.releaseVoice v r).settlePasses := by
  have hacts := h.releaseVoice_acts (n := 0) (A := (· = v)) rfl r
  rcases h.releaseVoice_cases v r with hc | ⟨-, hc⟩
  · generalize (s.releaseVoice v r).settlePasses = t at hacts hc
    have hgroups : t.groups = s.groups := (congrArg State.groups hc.frame :)
    exact Stops.of_acts hacts hv (congrArg State.cfg hc.frame :) (congrArg State.mode hc.frame :) (congrArg State.outcomes hc.frame :)
      hc.keepsReleases fun i => .inl (by rw [hgroups])
  · rw [hc]
    exact freedLeft_stops hv

/-! ## A withdrawal (R53) -/

/-- The station with the CLAIM of voice v taken out and its claimed request ended with outcome o (R53). -/
def State.claimEnded (s : State) (v : Fin 8) (o : RequestOutcome) : State :=
  (s.takeOut (Frame.isClaimOf (s.cueOf (s.voice v)).group)).settleClaim v o

theorem State.withdraw_eq (s : State) (v : Fin 8) (o : RequestOutcome) : s.withdraw v o = (s.claimEnded v o).freeVoice v := rfl

theorem State.claimEnded_spec (s : State) (v : Fin 8) (o : RequestOutcome) :
    ∃ os, s.claimEnded v o = { s.takeOut (Frame.isClaimOf (s.cueOf (s.voice v)).group) with outcomes := os } ∧
      (∀ p, os.get p = s.outcomes.get p ∨ os.get p = some o) ∧
      ((s.voice v).claimed = .openClaim → ∀ p, (s.voice v).source.place = some p → os.get p = some o) := by
  have hvoice : (s.takeOut (Frame.isClaimOf (s.cueOf (s.voice v)).group)).voice v = s.voice v := rfl
  unfold State.claimEnded State.settleClaim State.recordOutcome
  dsimp only
  rw [hvoice]
  cases (s.voice v).claimed with
  | none | played => exact ⟨s.outcomes, rfl, fun _ => .inl rfl, nofun⟩
  | openClaim =>
    dsimp only
    cases hp : (s.voice v).source.place with
    | none => exact ⟨s.outcomes, rfl, fun _ => .inl rfl, fun _ => nofun⟩
    | some i =>
      refine ⟨_, rfl, fun p => ?_, fun _ p hi => ?_⟩
      · by_cases hip : i = p
        · exact .inr (hip ▸ Table.get_set_self _ _ _)
        · exact .inl (Table.get_set_ne _ _ hip)
      · cases hi
        exact Table.get_set_self _ _ _

theorem NoRequests.claimEnded (h : NoRequests s) (v : Fin 8) (o : RequestOutcome) : NoRequests (s.claimEnded v o) := by
  obtain ⟨os, he, -⟩ := s.claimEnded_spec v o
  rw [he]
  exact ⟨h.lines, h.remote, h.passes⟩

/-- A withdrawal where no request is pending. -/
theorem NoRequests.withdraw (h : NoRequests s) (v : Fin 8) (o : RequestOutcome) :
    (s.withdraw v o).settlePasses = (s.claimEnded v o).freedLeft v := by
  rw [State.withdraw_eq]
  exact (h.claimEnded v o).freeVoice v

theorem claimsOf_freedLeft (s : State) (v : Fin 8) (g : Nat) : claimsOf g (s.freedLeft v).queue = claimsOf g s.queue := by
  have hclaims := (s.freedLeft_announces v).claims
  rw [(s.withFreed_same v).2.1] at hclaims
  exact claimsOf_congr hclaims g

/-- Taking frames out takes none into flight. -/
theorem hasFlying_takeOut {p q : Frame → Bool} (h : s.hasFlying q = false) : (s.takeOut p).hasFlying q = false := by
  unfold State.hasFlying at h ⊢
  rw [List.any_eq_false] at h ⊢
  exact fun e he => h e (List.mem_of_mem_filter he)

theorem takeOut_claim_keepsReleases (s : State) (g : Nat) : KeepsReleases s (s.takeOut (Frame.isClaimOf g)) :=
  takeOut_keepsReleases (fun f _ hf => by cases f <;> first | rfl | cases hf) s

theorem withdraw_stops (hc : (s.voice v).state = .claiming) : Stops o (· = v) s ((s.claimEnded v o).freedLeft v) := by
  obtain ⟨os, he, hos, -⟩ := s.claimEnded_spec v o
  have hacts : ActsOnly 0 (· = v) (s.claimEnded v o) ((s.claimEnded v o).freedLeft v) := freedLeft_acts rfl
  have hview := (s.claimEnded v o).freedLeft_view v
  obtain ⟨hcfg, hmode, houtcomes⟩ := (s.claimEnded v o).freedLeft_same v
  have hclaims := claimsOf_freedLeft (s.claimEnded v o) v
  have hfreed := ((s.claimEnded v o).freedLeft_voice v v).1 rfl
  have hreleases := freedLeft_keepsReleases (s.claimEnded v o) v
  have hflying : ∀ g, s.hasFlying (Frame.isClaimOf g) = false →
      ((s.claimEnded v o).freedLeft v).hasFlying (Frame.isClaimOf g) = false := fun g hg => by
    rw [State.hasFlying_claim, hclaims, ← State.hasFlying_claim, he]
    exact hasFlying_takeOut hg
  rw [he] at hacts hview hcfg hmode houtcomes hclaims hfreed hreleases hflying ⊢
  have hout := takeOut_claim_keepsReleases s (s.cueOf (s.voice v)).group
  exact {
    cfg := hcfg
    mode := hmode
    cues := hacts.cues
    requests := fun m => by rw [hacts.lines m]; rfl
    remote := hacts.remote
    passes := hacts.passes
    outcome := fun p => by rw [houtcomes]; exact hos p
    others := hacts.others
    free := hacts.free
    claiming := fun u hu => by
      have hne : u ≠ v := fun e => by
        rw [e, hfreed] at hu
        cases hu
      exact ⟨hacts.claiming u hu, by rw [(hacts.others u hne).rest]; rfl⟩
    claims := fun g hg => (hclaims g).trans (claimsOf_takeOut_ne (fun e => hg v rfl hc e.symm) s)
    flying := hflying
    releases := (hout.trans .of_same).trans hreleases
    view := hview }

end Sys2Proof.Machine
end
section
/-! PROOF. A visit that stops voices where no request is pending, as one voice sees it (R53, R57 to R59, R63). -/

namespace Sys2Proof.Machine

set_option Elab.async false

variable {s t x y : State} {v : Fin 8} {o : RequestOutcome} {A : Fin 8 → Prop} {g : Nat}

/-- The turn of voice v, from x to y, in a visit from s to t in which the other voices that A picks have theirs. -/
structure StopTurn (o : RequestOutcome) (A : Fin 8 → Prop) (v : Fin 8) (s x y t : State) : Prop where
  requests : NoRequests x
  before : Stops o A s x
  turn : Stops o (· = v) x y
  after : Stops o A y t
  own : ¬A v

/-- A visit of voices, each of whose turns stops its voice where J says that this turn is still to come. -/
theorem NoRequests.visitFrom_stops {f : Fin 8 → State → State} {J : Fin 8 → State → Prop}
    (hkeep : ∀ a x y B, Stops o B x y → ¬B a → J a x → J a y) (hf : ∀ a x, NoRequests x → J a x → Stops o (· = a) x (f a x))
    (n : Nat) (l : List (Fin 8)) (hn : l.length ≤ n) (hl : l.Nodup) (h : NoRequests s) (hj : ∀ a ∈ l, J a s) :
    Stops o (· ∈ l) s (visitFrom f n l s) ∧
      ∀ v ∈ l, ∃ x, StopTurn o (fun u => u ∈ l ∧ u ≠ v) v s x (f v x) (visitFrom f n l s) := by
  induction n generalizing l s with
  | zero =>
    obtain rfl := List.eq_nil_of_length_eq_zero (Nat.le_zero.mp hn)
    exact ⟨Stops.refl s, nofun⟩
  | succ n ih =>
    match l with
    | [] => exact ⟨Stops.refl s, nofun⟩
    | [a] =>
      have hturn := hf a s h (hj a List.mem_cons_self)
      refine ⟨hturn.mono fun u => List.mem_singleton.mpr, fun v hv => ?_⟩
      obtain rfl := List.mem_singleton.mp hv
      exact ⟨s, h, Stops.refl s, hturn, Stops.refl _, fun hno => hno.2 rfl⟩
    | a :: b :: rest =>
      have hchoice : ∀ B, Stops o B s { s with choices := s.choices + 1 } := fun B => Stops.of_same
      have hc : NoRequests { s with choices := s.choices + 1 } := h.of_stops (hchoice fun _ => False)
      unfold visitFrom
      dsimp only
      generalize hall : a :: b :: rest = all at hn hl hj ⊢
      have hi : Config.freeChoice s.choices % all.length < all.length :=
        Nat.mod_lt _ (by rw [← hall]; exact Nat.succ_pos _)
      generalize Config.freeChoice s.choices % all.length = i at hi ⊢
      rw [List.getD_eq_getElem _ _ hi]
      have hperm := List.getElem_cons_eraseIdx_perm hi
      obtain ⟨hfresh, hrest⟩ := List.nodup_cons.mp (hperm.symm.nodup hl)
      have hmem : all[i] ∈ all := List.getElem_mem hi
      have hleft : ∀ u ∈ all.eraseIdx i, u ∈ all := fun u => List.mem_of_mem_eraseIdx
      have hlen : (all.eraseIdx i).length ≤ n := by
        rw [List.length_eraseIdx, if_pos hi]
        omega
      generalize all[i] = w at hperm hfresh hmem ⊢
      have hjc : ∀ a ∈ all, J a { s with choices := s.choices + 1 } :=
        fun a ha => hkeep a _ _ (fun _ => False) (hchoice _) id (hj a ha)
      have hturn := hf w _ hc (hjc w hmem)
      obtain ⟨hwhole, hturns⟩ := ih (all.eraseIdx i) hlen hrest (hc.of_stops hturn)
        fun a ha => hkeep a _ _ _ hturn (fun e => hfresh (e ▸ ha)) (hjc a (hleft a ha))
      refine ⟨((hchoice _).trans (hturn.mono fun u hu => hu ▸ hmem)).trans (hwhole.mono hleft), fun v hv => ?_⟩
      by_cases hw : v = w
      · subst hw
        exact ⟨_, hc, hchoice _, hturn, hwhole.mono fun u hu => ⟨hleft u hu, fun e => hfresh (e ▸ hu)⟩, fun hno => hno.2 rfl⟩
      · obtain ⟨x, hx⟩ := hturns v ((List.mem_cons.mp (hperm.mem_iff.mpr hv)).resolve_left hw)
        have hothers : ∀ u, u ∈ all.eraseIdx i ∧ u ≠ v → u ∈ all ∧ u ≠ v := fun u hu => ⟨hleft u hu.1, hu.2⟩
        exact ⟨x, hx.requests,
          ((hchoice _).trans (hturn.mono fun u hu => ⟨hu ▸ hmem, fun e => hw (e.symm.trans hu)⟩)).trans (hx.before.mono hothers),
          hx.turn, hx.after.mono hothers, fun hno => hno.2 rfl⟩

/-! ## What the turn of one voice finds and leaves -/

theorem StopTurn.voice (h : StopTurn o A v s x y t) : Untouched (s.voice v) (x.voice v) := h.before.others v h.own

theorem StopTurn.cueOf (h : StopTurn o A v s x y t) : x.cueOf (x.voice v) = s.cueOf (s.voice v) :=
  cueOf_congr h.before.cues (by rw [h.voice.rest])

/-- The only claimant of a group finds the CLAIMs of the group as they were, and leaves them to nobody. -/
theorem StopTurn.claims (h : StopTurn o A v s x y t) (only : OnlyClaimant s g v) :
    claimsOf g x.queue = claimsOf g s.queue ∧ claimsOf g t.queue = claimsOf g y.queue := by
  have hother : ∀ a, A a → (s.voice a).state = .claiming → (s.cueOf (s.voice a)).group ≠ g :=
    fun a ha hc hg => h.own (only.only a hc hg ▸ ha)
  refine ⟨h.before.claims g hother, h.after.claims g fun a ha hc => ?_⟩
  obtain ⟨hx, hcue⟩ := h.turn.claiming a hc
  obtain ⟨hs, hcue'⟩ := h.before.claiming a hx
  rw [cueOf_congr (h.turn.cues.trans h.before.cues) (hcue.trans hcue')]
  exact hother a ha hs

/-- The turn of a CLAIMING voice that is withdrawn. -/
theorem StopTurn.withdrawn (h : StopTurn o A v s x y t) (hy : y = (x.claimEnded v o).freedLeft v) (only : OnlyClaimant s g v)
    (hno : s.hasFlying (Frame.isClaimOf g) = false) :
    t.voice v = Voice.freed (s.voice v).generation ∧ t.hasFrame (Frame.isClaimOf g) = false ∧
      ((s.voice v).claimed = .openClaim → ∀ p, (s.voice v).source.place = some p → t.outcomes.get p = some o) := by
  obtain ⟨-, hclaims⟩ := h.claims only
  obtain ⟨os, he, -, hos⟩ := x.claimEnded_spec v o
  have hvoice : (x.claimEnded v o).voice v = x.voice v := by rw [he]; rfl
  have hfreed : y.voice v = Voice.freed (s.voice v).generation := by
    rw [hy, ((x.claimEnded v o).freedLeft_voice v v).1 rfl, hvoice, h.voice.generation]
  have hgone : claimsOf g y.queue = [] := by
    rw [hy, claimsOf_freedLeft, he, h.cueOf, only.group]
    exact claimsOf_takeOut_self (h.before.flying g hno)
  have houtcomes : y.outcomes = os := by
    rw [hy, ((x.claimEnded v o).freedLeft_same v).2.2, he]
  refine ⟨h.after.free v _ h.own hfreed, State.hasFrame_claim _ _ (hclaims.trans hgone), fun hopen p hp => ?_⟩
  have hx : os.get p = some o := hos (by rw [h.voice.rest]; exact hopen) p (by rw [h.voice.rest]; exact hp)
  exact (h.after.outcome p).elim (fun e => e.trans (by rw [houtcomes]; exact hx)) id

end Sys2Proof.Machine
end
section
/-! PROOF. A DISARM withdraws the claims for the named groups that wait (ArmAndDisarmSetTheNamedGroups). -/

namespace Sys2Proof.Machine

set_option Elab.async false

variable {s t base : State} {sender : Sender} {set : GroupSet} {v : Fin 8} {g : Nat} {i : Fin 15}

theorem OnlyClaimant.congr (h : OnlyClaimant s g v) (voices : ∀ u, t.voice u = s.voice u) (cues : t.cues = s.cues) :
    OnlyClaimant t g v := by
  have hcue : ∀ u, t.cueOf (t.voice u) = s.cueOf (s.voice u) := fun u => cueOf_congr cues (by rw [voices])
  refine ⟨(congrArg Voice.state (voices v)).trans h.state, (congrArg Cue.group (hcue v)).trans h.group, fun u hu hg => ?_⟩
  rw [voices] at hu
  rw [hcue] at hg
  exact h.only u hu hg

/-- The one claimant of a named group whose CLAIM waits is among the voices that a DISARM withdraws. -/
theorem OnlyClaimant.claimsNamed (h : OnlyClaimant s (i.val + 1) v) (hi : set.getLsbD (i.val + 1) = true)
    (hw : s.hasWaiting (Frame.isClaimOf (i.val + 1)) = true) : s.claimsNamed set v = true := by
  have hplace : groupPlace (s.cueOf (s.voice v)).group = some i := groupPlace_eq_some.mpr h.group.symm
  unfold State.claimsNamed
  rw [hplace]
  dsimp only
  rw [names, hi, State.claimQueued_iff.mpr ⟨h.state, by rw [h.group]; exact hw⟩]
  rfl

theorem State.claiming_of_claimsNamed (h : s.claimsNamed set v = true) : (s.voice v).state = .claiming := by
  unfold State.claimsNamed at h
  split at h
  · exact (State.claimQueued_iff.mp (Bool.and_eq_true _ _ ▸ h).2).1
  · cases h

/-- A DISARM disarms the named groups, and where one was armed it withdraws the claims for them that wait. -/
theorem NoRequests.disarmGroups (h : NoRequests s) :
    Stops .refused (fun v => (s.voice v).state = .claiming) (s.withDisarmed set) (s.disarmGroups set) ∧
      (s.armingChanges set false = true → ∀ v, s.claimsNamed set v = true →
        ∃ x A, StopTurn .refused A v (s.withDisarmed set) x ((x.withdraw v .refused).settlePasses) (s.disarmGroups set)) := by
  unfold State.disarmGroups
  rw [State.setArmed_false]
  cases hchange : s.armingChanges set false with
  | false =>
    rw [← State.setArmed_false, State.setArmed_of_unchanged hchange]
    exact ⟨Stops.refl s, nofun⟩
  | true =>
    have hd : NoRequests (s.withDisarmed set) := ⟨h.lines, h.remote, h.passes⟩
    have hmem : ∀ v, v ∈ slots.filter (fun v => s.claimsNamed set v) ↔ s.claimsNamed set v = true := fun v => by
      rw [List.mem_filter]
      exact and_iff_right (mem_slots v)
    obtain ⟨hstops, hturns⟩ := hd.visitFrom_stops (o := .refused) (f := fun v t => (State.withdraw t v .refused).settlePasses)
      (J := fun a x => (x.voice a).state = .claiming)
      (fun a x y B hxy ha hx => (hxy.others a ha).state.trans hx)
      (fun a x hx hc => by rw [hx.withdraw]; exact withdraw_stops hc)
      _ _ (Nat.le_refl _) (slots_filter_nodup fun v => s.claimsNamed set v) fun a ha => State.claiming_of_claimsNamed ((hmem a).mp ha)
    rw [if_pos rfl, visitServing, visit, (hd.of_stops hstops).runPass]
    refine ⟨hstops.mono fun u hu => State.claiming_of_claimsNamed ((hmem u).mp hu), fun _ v hv => ?_⟩
    obtain ⟨x, hx⟩ := hturns v ((hmem v).mpr hv)
    exact ⟨x, _, hx⟩

/-- With no request pending and no voice CLAIMING a DISARM disarms the named groups, and does no more. -/
theorem NoRequests.disarmGroups_of_no_claims (h : NoRequests s) (hc : ∀ v, (s.voice v).state ≠ .claiming) :
    s.disarmGroups set = s.withDisarmed set := by
  have hd : NoRequests (s.withDisarmed set) := ⟨h.lines, h.remote, h.passes⟩
  have hnone : (slots.filter fun v => s.claimsNamed set v) = [] :=
    List.filter_eq_nil_iff.mpr fun v _ hv => hc v (State.claiming_of_claimsNamed hv)
  unfold State.disarmGroups
  rw [State.setArmed_false, hnone]
  cases hchange : s.armingChanges set false with
  | false =>
    rw [← State.setArmed_false, State.setArmed_of_unchanged hchange]
    rfl
  | true => exact hd.runPass

theorem State.withDisarmed_armed (i : Fin 15) :
    ((s.withDisarmed set).groups.get i).armed = ((s.groups.get i).armed && !set.getLsbD (i.val + 1)) := by
  unfold State.withDisarmed
  rw [Table.get_mapIdx]

/-- Where no request is pending the armed flag of a group survives what stops voices. -/
theorem Stops.armed {o : RequestOutcome} {A : Fin 8 → Prop} (h : Stops o A s t) (i : Fin 15) :
    (t.groups.get i).armed = (s.groups.get i).armed := by
  rcases h.view i with he | he <;> rw [he]

/-- Settles O48: an ARM's pass finds nothing (`NoRequests.armGroups`) or serves in the order of `armServesTheFirst`; a DISARM's visit gives
each claim for a named group its turn (`NoRequests.disarmGroups`). -/
theorem armAndDisarmSetTheNamedGroups : Obligations.ArmAndDisarmSetTheNamedGroups := by
  refine ⟨fun s base sender set hn => ⟨fun h => ?_, fun h hw => ?_⟩, armServesTheFirst⟩
  · rw [h.exec_arm, (h.requests hn).armGroups]
    unfold State.withArmed
    rw [h.groups]
  have hbase := h.requests hn
  have hnofly : ∀ g, base.hasFlying (Frame.isClaimOf g) = false := fun g => hasFlying_of_waits (h.waits hw) _
  have hexec := h.exec_disarm
  refine ⟨fun hc => ?_, base.disarmGroups set, hexec, fun i => ?_, fun v hv => ?_, fun i v hi harmed only hwait => ?_⟩
  · rw [hexec, hbase.disarmGroups_of_no_claims fun v => by rw [h.voice]; exact hc v]
    unfold State.withDisarmed
    rw [h.groups]
  · obtain ⟨hstops, -⟩ := hbase.disarmGroups (set := set)
    rw [hstops.armed, State.withDisarmed_armed, h.groups]
  · obtain ⟨hstops, -⟩ := hbase.disarmGroups (set := set)
    rw [← h.voice] at hv ⊢
    exact hstops.others v hv
  · have honly : OnlyClaimant base (i.val + 1) v := only.congr h.voice (congrArg State.cues h.frame :)
    have hchange : base.armingChanges set false = true :=
      (State.armingChanges_iff false).mpr ⟨i, hi, by rw [h.groups, harmed]; exact Bool.true_eq_false_eq_False⟩
    obtain ⟨-, hturns⟩ := hbase.disarmGroups (set := set)
    obtain ⟨x, A, hx⟩ := hturns hchange v (honly.claimsNamed hi hwait)
    have hdone := hx.withdrawn (hx.requests.withdraw v .refused) (g := i.val + 1) (honly.congr (fun _ => rfl) rfl) (hnofly _)
    have hvoice : (base.withDisarmed set).voice v = s.voice v := h.voice v
    rwa [hvoice] at hdone

end Sys2Proof.Machine
end
section
/-! PROOF. What a STOP does to requests and to voices (R35, R70, StopEndsTheCue). -/

namespace Sys2Proof.Machine

set_option Elab.async false

variable {s t x base : State} {sender : Sender} {v n : Fin 8} {A : Fin 8 → Prop} {k c : Nat}

/-! ## Requests (R35) -/

theorem Eases.withdrawRequest (h : Eases s t) (n : Fin 8) : Eases s (t.withdrawRequest n) := by
  unfold State.withdrawRequest
  split
  · exact (h.recordOutcome _ _).clearRequest n
  · exact h

theorem Eases.stopRequest (h : Eases s t) (c : Nat) (n : Fin 8) : Eases s (t.stopRequest c n) := by
  unfold State.stopRequest
  split
  · split
    · exact h.withdrawRequest n
    · exact h
  · exact h

theorem Eases.stopVoice (h : Eases s t) (k : Nat) (v : Fin 8) : Eases s (t.stopVoice k v) := by
  unfold State.stopVoice
  dsimp only
  split
  · exact h.withdraw _ _
  · split
    · exact h.congr
    · exact h.releaseVoice _ _

theorem Eases.stopVoices (h : Eases s t) (c k : Nat) : Eases s (t.stopVoices c k) := by
  refine h.visitServing (fun v u hu => ?_) _
  split
  · exact hu.stopVoice k v
  · exact hu

theorem State.withdrawRequest_line (s : State) (n : Fin 8) : ((s.withdrawRequest n).line n).request = none := by
  unfold State.withdrawRequest
  split
  · exact (State.clearRequest_line n).trans (if_pos rfl)
  next h => exact h

/-- Entries that the test picks leave the remote queue, whatever the pass of a new head then does. -/
theorem withdrawRemote_eases (s : State) (p : RemoteEntry → Bool) :
    Eases { s with remote := s.remote.filter fun r => !p r } (s.withdrawRemote p) := by
  unfold State.withdrawRemote
  split
  · dsimp only
    have hleft : Eases { s with remote := s.remote.filter fun r => !p r }
        { s.recordOutcome .remote .withdrawn with remote := s.remote.filter fun r => !p r } := Eases.of_same
    split
    · exact hleft.runPass
    · exact hleft
  next h =>
    have hall : s.remote.filter (fun r => !p r) = s.remote := List.filter_eq_self.mpr fun r hr => by
      rw [Bool.not_eq_true', Bool.eq_false_iff]
      exact fun hp => h (List.any_eq_true.mpr ⟨r, hr, hp⟩)
    rw [hall]
    exact Eases.refl s

/-- A member of the list brings about what its turn always brings about and the turns of the others keep. -/
theorem inOrder_reaches {α : Type} {f : α → State → State} {I P : State → Prop} {l : List α} {a : α} (ha : a ∈ l)
    (hI : ∀ b u, I u → I (f b u)) (hturn : ∀ u, I u → P (f a u)) (hP : ∀ b u, P u → P (f b u)) (h : I s) : P (inOrder f l s) := by
  induction l generalizing s with
  | nil => cases ha
  | cons b rest ih =>
    rcases List.mem_cons.mp ha with rfl | ha
    · exact inOrder_keeps hP rest (hturn s h)
    · exact ih ha (hI b s h)

/-- A STOP for cue c ends the requests for it. -/
theorem State.stopRequests_ends (s : State) (c : Nat) :
    (∀ n r, (s.line n).request = some r → r.cue = c → ((s.stopRequests c).line n).request = none) ∧
      ∀ r ∈ (s.stopRequests c).remote, r.cue ≠ c := by
  have hended : ∀ n r, (s.line n).request = some r → r.cue = c →
      ((inOrder (fun n t => State.stopRequest t c n) slots s).line n).request = none := fun n r hr hc => by
    refine inOrder_reaches (I := Eases s) (P := fun u => (u.line n).request = none) (mem_slots n) (fun m u hu => hu.stopRequest c m)
      (fun u hu => ?_) (fun m u hu => ?_) (Eases.refl s)
    · unfold State.stopRequest
      rcases hu.request n with he | he
      · rw [he, hr]
        dsimp only
        rw [if_pos hc]
        exact u.withdrawRequest_line n
      · rw [he]
        exact he
    · exact (((Eases.refl u).stopRequest c m).request n).elim (·.trans hu) id
  unfold State.stopRequests
  generalize inOrder (fun n t => State.stopRequest t c n) slots s = z at hended ⊢
  have heases := withdrawRemote_eases z fun r => r.cue == c
  generalize z.withdrawRemote (fun r => r.cue == c) = y at heases ⊢
  refine ⟨fun n r hr hc => ?_, fun r hr => ?_⟩
  · exact (heases.request n).elim (·.trans (hended n r hr hc)) id
  · have hmem := (List.mem_filter.mp (heases.remote.subset hr)).2
    rw [Bool.not_eq_true', beq_eq_false_iff_ne] at hmem
    exact hmem

theorem NoRequests.stopRequests (h : NoRequests s) (c : Nat) : s.stopRequests c = s := by
  have hlines : inOrder (fun n t => State.stopRequest t c n) slots s = s := inOrder_eq_self fun n _ => by
    unfold State.stopRequest
    rw [h.lines n]
  unfold State.stopRequests State.withdrawRemote
  rw [hlines, h.remote]
  rfl

/-! ## Voices (R70) -/

/-- No CLAIM is being sent. -/
def NoClaimFlies (s : State) : Prop := ∀ g, s.hasFlying (Frame.isClaimOf g) = false

/-- A voice that is not CLAIMING, or whose CLAIM is in the queue no more, is released by fade. -/
theorem NoClaimFlies.stopVoice (h : NoClaimFlies s) (hq : s.claimQueued v = false) : s.stopVoice k v = s.releaseVoice v (.fade k) := by
  have hfly : s.claimFlying v = false := Bool.eq_false_iff.mpr fun hf =>
    Bool.false_ne_true ((h _).symm.trans (State.claimFlying_iff.mp hf).2)
  unfold State.stopVoice
  dsimp only
  rw [hq, hfly]
  rfl

theorem State.releaseVoice_of_claiming (hs : (s.voice v).state = .claiming) (r : Rate) : s.releaseVoice v r = s := by
  unfold State.releaseVoice
  dsimp only
  rw [hs]

theorem NoRequests.stopVoice_stops (h : NoRequests s) (hno : NoClaimFlies s) (k : Nat) (v : Fin 8) :
    Stops .withdrawn (· = v) s (s.stopVoice k v).settlePasses := by
  cases hq : s.claimQueued v with
  | true =>
    have hstop : s.stopVoice k v = s.withdraw v .withdrawn := if_pos hq
    rw [hstop, h.withdraw]
    exact withdraw_stops (State.claimQueued_iff.mp hq).1
  | false =>
    rw [hno.stopVoice hq]
    by_cases hc : (s.voice v).state = .claiming
    · rw [State.releaseVoice_of_claiming hc, h.settlePasses]
      exact Stops.refl s
    · exact h.releaseVoice_stops hc _

theorem Stops.noClaimFlies {o : RequestOutcome} (h : Stops o A s t) (hs : NoClaimFlies s) : NoClaimFlies t := fun g => h.flying g (hs g)

/-- What the turn of a voice in a visit that stops voices leaves of it. -/
theorem StopTurn.stopped (h : StopTurn .withdrawn A v s x ((x.stopVoice k v).settlePasses) t) (hno : NoClaimFlies s) :
    StoppedVoice s s t k v := by
  have hafter := h.after.others v h.own
  have hclaimQueued : x.claimQueued v = true ↔
      (s.voice v).state = .claiming ∧ x.hasWaiting (Frame.isClaimOf (s.cueOf (s.voice v)).group) = true := by
    rw [State.claimQueued_iff, h.voice.state, h.cueOf]
  unfold StoppedVoice
  refine ⟨fun hc => ?_, fun only => ?_⟩
  · have hq : x.claimQueued v = false := Bool.eq_false_iff.mpr fun hq => hc (hclaimQueued.mp hq).1
    rw [(h.before.noClaimFlies hno).stopVoice hq, h.requests.releaseVoice_fade] at hafter
    exact (h.voice.released _).trans hafter
  · obtain ⟨hclaims, -⟩ := h.claims only
    rw [State.hasWaiting_claim, hclaims, ← State.hasWaiting_claim] at hclaimQueued
    refine ⟨fun hw => ?_, fun hw => ?_⟩
    · have hstop : x.stopVoice k v = x.withdraw v .withdrawn := if_pos (hclaimQueued.mpr ⟨only.state, hw⟩)
      exact h.withdrawn (by rw [hstop]; exact h.requests.withdraw v .withdrawn) only (hno _)
    · have hq : x.claimQueued v = false := Bool.eq_false_iff.mpr fun hq => Bool.false_ne_true (hw.symm.trans (hclaimQueued.mp hq).2)
      rw [(h.before.noClaimFlies hno).stopVoice hq, State.releaseVoice_of_claiming (h.voice.state.trans only.state),
        h.requests.settlePasses] at hafter
      exact h.voice.trans hafter

/-- `StoppedVoice` of a state whose voices, cues and queue are those named. -/
theorem StoppedVoice.congr {z : State} (h : StoppedVoice z z t k v) (voices : ∀ u, z.voice u = s.voice u) (cues : z.cues = s.cues)
    (queue : z.queue = base.queue) : StoppedVoice s base t k v := by
  have hcue : z.cueOf (z.voice v) = s.cueOf (s.voice v) := cueOf_congr cues (by rw [voices])
  have hwaits : ∀ p, base.hasWaiting p = z.hasWaiting p := fun p => by
    unfold State.hasWaiting
    rw [queue]
  unfold StoppedVoice at h ⊢
  obtain ⟨hreleased, hclaim⟩ := h
  rw [voices] at hreleased hclaim
  refine ⟨hreleased, fun only => ?_⟩
  have hcue' : z.cueOf (s.voice v) = s.cueOf (s.voice v) := cueOf_congr cues rfl
  rw [hcue'] at hclaim
  rw [hwaits]
  exact hclaim (only.congr voices cues)

theorem State.isVoiceOf_iff : s.isVoiceOf c v = true ↔ (s.voice v).state ≠ .free ∧ (s.voice v).cue = c := by
  unfold State.isVoiceOf
  rw [Bool.and_eq_true, decide_eq_true_iff, decide_eq_true_iff]

/-- A STOP for cue c stops the voices of the cue, and leaves the others. -/
theorem NoRequests.stopVoices (h : NoRequests s) (hno : NoClaimFlies s) (c k : Nat) (v : Fin 8) :
    (s.isVoiceOf c v = true → StoppedVoice s s (s.stopVoices c k) k v) ∧
      (s.isVoiceOf c v = false → Untouched (s.voice v) ((s.stopVoices c k).voice v)) := by
  have hmem : ∀ v, v ∈ slots.filter (fun v => s.isVoiceOf c v) ↔ s.isVoiceOf c v = true := fun v => by
    rw [List.mem_filter]
    exact and_iff_right (mem_slots v)
  obtain ⟨hstops, hturns⟩ := h.visitFrom_stops (o := .withdrawn) (J := fun _ => NoClaimFlies)
    (f := fun v t => (if t.isVoiceOf c v then t.stopVoice k v else t).settlePasses)
    (fun a x y B hxy _ hx => hxy.noClaimFlies hx)
    (fun a x hx hfly => by
      split
      · exact hx.stopVoice_stops hfly k a
      · rw [hx.settlePasses]
        exact Stops.refl x)
    _ _ (Nat.le_refl _) (slots_filter_nodup fun v => s.isVoiceOf c v) fun _ _ => hno
  refine ⟨fun hv => ?_, fun hv => hstops.others v fun hin => Bool.false_ne_true (hv.symm.trans ((hmem v).mp hin))⟩
  obtain ⟨x, hx⟩ := hturns v ((hmem v).mpr hv)
  have hvoice : x.isVoiceOf c v = true := by
    rw [State.isVoiceOf_iff, hx.voice.state, hx.voice.rest]
    exact State.isVoiceOf_iff.mp hv
  rw [if_pos hvoice] at hx
  exact hx.stopped hno

theorem Completes.exec_stop {target cue : Byte} {fade : BitVec 3} (h : Completes s sender (.stop target cue fade) base) :
    exec (.stop sender target cue fade) s = .next (base.stopFrame target cue fade) := by
  have hcomplete := h.completeFrame
  change Host.Outcome.next (s.completeFrame sender (.stop target cue fade)) = _
  rw [hcomplete]
  cases sender <;> rfl

/-- Settles O55: the requests end (`State.stopRequests_ends`) and stay ended, and each voice of the cue has its turn
(`NoRequests.stopVoices`). -/
theorem stopEndsTheCue : Obligations.StopEndsTheCue := by
  intro s base sender target cue k h hw hcue
  rw [h.exec_stop]
  unfold State.stopFrame
  refine ⟨fun ht => by rw [if_neg (ht ∘ (h.addressed_iff target).mp)], fun ht => ⟨base.stopCue cue.toNat k.toNat, ?_, ?_⟩⟩
  · rw [if_pos ((h.addressed_iff target).mpr ht), if_neg hcue]
  obtain ⟨hended, hremote⟩ := base.stopRequests_ends cue.toNat
  have heases : Eases (base.stopRequests cue.toNat) (base.stopCue cue.toNat k.toNat) := (Eases.refl _).stopVoices _ _
  refine ⟨fun n r hr hc => ?_, fun r hr => hremote r (heases.remote.subset hr), fun hn v => ?_⟩
  · exact (heases.request n).elim (·.trans (hended n r (by rw [h.line]; exact hr) hc)) id
  have hbase := h.requests hn
  have hno : NoClaimFlies base := fun g => hasFlying_of_waits (h.waits hw) _
  obtain ⟨hstopped, hothers⟩ := hbase.stopVoices hno cue.toNat k.toNat v
  have hstop : base.stopCue cue.toNat k.toNat = base.stopVoices cue.toNat k.toNat := by
    unfold State.stopCue
    rw [hbase.stopRequests]
  rw [← hstop, ← Bool.not_eq_true, State.isVoiceOf_iff, h.voice] at hothers
  rw [← hstop, State.isVoiceOf_iff, h.voice] at hstopped
  refine ⟨fun hs hc => (hstopped ⟨hs, hc⟩).congr h.voice (congrArg State.cues h.frame :) rfl, fun hor => hothers fun hboth => ?_⟩
  exact hor.elim hboth.1 fun hne => hne hboth.2

end Sys2Proof.Machine
end
section
/-! PROOF. What the all-stop ends, whatever waits: trips, pairs, requests, penalties and marks (R35, R71, R124, R129). -/

namespace Sys2Proof.Machine

set_option Elab.async false

variable {s t u : State} {k : Nat}

/-! ## The output pairs (R125, R129) -/

/-- TRIP is latched. -/
def State.tripLatched (s : State) : Prop := s.flag .trip = true ∧ s.newMark .trip = true

theorem Eases.tripLatched (h : Eases s t) (hs : s.tripLatched) : t.tripLatched := ⟨h.flag _ hs.1, h.newMark _ hs.2⟩

theorem State.tripPair_eq (s : State) (o : OutPair) :
    (∃ p fl, s.tripPair o = { s.setPair o p with flags := fl } ∧ p.allStop = (s.pair o).allStop) ∧ Eases s (s.tripPair o) ∧
      ((s.pair o).tripDue = true → (s.tripPair o).tripLatched) := by
  have hsame : ∀ p, Eases s (s.setPair o p) := fun p => by cases o <;> exact Eases.of_same
  unfold State.tripPair
  split
  next hdue =>
    refine ⟨⟨_, _, rfl, ?_⟩, (hsame _).latch .trip, fun _ => ⟨State.flag_latch_self _ _, State.newMark_latch_self _ _⟩⟩
    unfold Pair.forgive
    split <;> rfl
  next hdue => exact ⟨⟨s.pair o, s.flags, by rw [State.setPair_self], rfl⟩, Eases.refl s, fun h => absurd h hdue⟩

/-- OUT's part of the all-stop, the trips that are due first. -/
theorem State.allStopOutput_eq (s : State) :
    ∃ fl, s.takeTrips.allStopOutput = { s with pgm := s.pgm.allStop, floor := s.floor.allStop, flags := fl } ∧
      ∀ o, (s.pair o).tripDue = true → s.takeTrips.allStopOutput.tripLatched := by
  obtain ⟨⟨p, fl, hpgm, hp⟩, -, hdue⟩ := s.tripPair_eq .pgm
  obtain ⟨⟨q, fl', hfloor, hq⟩, heases, hdue'⟩ := (s.tripPair .pgm).tripPair_eq .floor
  have hpair : (s.tripPair .pgm).pair .floor = s.floor := by rw [hpgm]; rfl
  rw [hpair] at hq hdue'
  have htrips : s.takeTrips = { s with pgm := p, floor := q, flags := fl' } := by
    unfold State.takeTrips
    rw [hfloor, hpgm]
    rfl
  refine ⟨fl', ?_, fun o ho => ?_⟩
  · rw [htrips]
    unfold State.allStopOutput
    dsimp only
    rw [hp, hq]
    rfl
  · have hlatched : s.takeTrips.tripLatched := by
      cases o with
      | pgm => exact heases.tripLatched (hdue ho)
      | floor => exact hdue' ho
    exact hlatched

/-! ## Requests and lines (R35) -/

/-- Line n has no request, no penalty and owes no release. -/
structure Cleared (s : State) (n : Fin 8) : Prop where
  request : (s.line n).request = none
  penalty : (s.line n).penalty = none
  owed : (s.line n).owedRelease = false

/-- From s to t a line that was clear, an empty remote queue and a latched TRIP have stayed. -/
structure Calms (s t : State) : Prop where
  cleared : ∀ n, Cleared s n → Cleared t n
  remote : s.remote = [] → t.remote = []
  trip : s.tripLatched → t.tripLatched

theorem Calms.refl (s : State) : Calms s s := ⟨fun _ => id, id, id⟩

theorem Calms.trans (h : Calms s t) (k : Calms t u) : Calms s u :=
  ⟨fun n => k.cleared n ∘ h.cleared n, k.remote ∘ h.remote, k.trip ∘ h.trip⟩

theorem Eases.calms (h : Eases s t) : Calms s t where
  cleared := fun n hn => ⟨(h.request n).elim (·.trans hn.request) id, (h.penalty n).trans hn.penalty, h.owed n hn.owed⟩
  remote := fun hs => List.suffix_nil.mp (hs ▸ h.remote)
  trip := h.tripLatched

/-- TRG's part of the all-stop on line n. -/
def State.allStopLine (s : State) (n : Fin 8) : State :=
  (s.withdrawRequest n).setLine n ((s.withdrawRequest n).line n).allStop

theorem State.allStopLine_spec (s : State) (n : Fin 8) : Calms s (s.allStopLine n) ∧ Cleared (s.allStopLine n) n := by
  have heases := (Eases.refl s).withdrawRequest n
  have hrequest := s.withdrawRequest_line n
  unfold State.allStopLine
  generalize s.withdrawRequest n = x at heases hrequest
  have hline : (x.setLine n (x.line n).allStop).line n = (x.line n).allStop := x.line_setLine_self n _
  have hcleared : Cleared (x.setLine n (x.line n).allStop) n := by
    refine ⟨?_, ?_, ?_⟩ <;> rw [hline]
    · exact hrequest
    · rfl
    · rfl
  refine ⟨heases.calms.trans ⟨fun m hm => ?_, id, id⟩, hcleared⟩
  by_cases hmn : m = n
  · exact hmn ▸ hcleared
  · have hother : (x.setLine n (x.line n).allStop).line m = x.line m := Table.get_set_ne _ _ (Ne.symm hmn)
    exact ⟨by rw [hother]; exact hm.request, by rw [hother]; exact hm.penalty, by rw [hother]; exact hm.owed⟩

theorem State.allStopRequests_eq (s : State) :
    s.allStopRequests = (inOrder (fun n t => State.allStopLine t n) slots s).withdrawRemote fun _ => true := rfl

/-- TRG's part of the all-stop: every line is clear and the remote queue empty. -/
theorem State.allStopRequests_spec (s : State) :
    Calms s s.allStopRequests ∧ (∀ n, Cleared s.allStopRequests n) ∧ s.allStopRequests.remote = [] := by
  have hcalms : Calms s (inOrder (fun n t => State.allStopLine t n) slots s) :=
    inOrder_keeps (P := Calms s) (fun n u hu => hu.trans (u.allStopLine_spec n).1) slots (Calms.refl s)
  have hcleared : ∀ n, Cleared (inOrder (fun n t => State.allStopLine t n) slots s) n := fun n =>
    inOrder_reaches (I := fun _ => True) (P := fun u => Cleared u n) (mem_slots n) (fun _ _ => id) (fun u _ => (u.allStopLine_spec n).2)
      (fun m u hu => (u.allStopLine_spec m).1.cleared n hu) trivial
  rw [State.allStopRequests_eq]
  generalize inOrder (fun n t => State.allStopLine t n) slots s = z at hcalms hcleared ⊢
  have heases := withdrawRemote_eases z fun _ => true
  generalize z.withdrawRemote (fun _ => true) = y at heases ⊢
  have hempty : z.remote.filter (fun _ => !true) = [] := List.filter_eq_nil_iff.mpr fun _ _ => Bool.false_ne_true
  have hz : Calms z { z with remote := z.remote.filter fun _ => !true } :=
    ⟨fun n hn => ⟨hn.request, hn.penalty, hn.owed⟩, fun _ => hempty, id⟩
  exact ⟨(hcalms.trans hz).trans heases.calms, fun n => heases.calms.cleared n (hz.cleared n (hcleared n)), heases.calms.remote hempty⟩

/-! ## The whole (R71) -/

theorem Eases.releaseHeld (h : Eases s t) (i : Fin 15) : Eases s (t.releaseHeld i) := by
  unfold State.releaseHeld
  split
  · exact h.queueRelease _
  · exact h

theorem State.allStopPart_calms (s : State) (k : Nat) (p : AllStopPart) : Calms s (s.allStopPart k p) := by
  cases p with
  | requests => exact s.allStopRequests_spec.1
  | voices => exact ((Eases.refl s).visitServing (fun v _ hu => hu.stopVoice k v) slots).calms
  | groups => exact ((Eases.refl s).visit (fun i _ hu => hu.releaseHeld i) s.heldPlaces).calms

/-- Once OUT's part is done, the all-stop clears every line and the remote queue, and keeps a latched TRIP. -/
theorem State.allStop_calms (s : State) (k : Nat) :
    Calms s.takeTrips.allStopOutput (s.allStop k) ∧ (∀ n, Cleared (s.allStop k) n) ∧ (s.allStop k).remote = [] := by
  unfold State.allStop
  generalize s.takeTrips.allStopOutput = z
  obtain ⟨x, -, hx, ht⟩ := visitFrom_turn (f := fun p t => State.allStopPart t k p) (I := fun _ => True) (R := Calms) Calms.refl
    Calms.trans (fun u n _ => ⟨trivial, (Eases.of_same : Eases u { u with choices := n }).calms⟩) _
    [AllStopPart.requests, .voices, .groups] (Nat.le_refl _) (by decide) (List.mem_cons_self : AllStopPart.requests ∈ _)
    (fun _ _ => trivial) (fun p _ _ u _ => ⟨trivial, u.allStopPart_calms k p⟩) (s := z) trivial
  obtain ⟨hcalms, hcleared, hremote⟩ := x.allStopRequests_spec
  exact ⟨(hx.trans hcalms).trans ht, fun n => ht.cleared n (hcleared n), ht.remote hremote⟩

theorem State.allStop_kept (s : State) (k : Nat) : Kept s.takeTrips.allStopOutput (s.allStop k) :=
  (kept_stable _).visit (fun p _ hu => (kept_stable _).allStopPart k p hu) _ (Kept.refl _)

end Sys2Proof.Machine
end
section
/-! PROOF. The all-stop where no request is pending: its voices and its RELEASEs (R70, R90, AllStopEndsEverything). -/

namespace Sys2Proof.Machine

set_option Elab.async false

variable {s t u x y z base : State} {sender : Sender} {v : Fin 8} {o : RequestOutcome} {A : Fin 8 → Prop} {k : Nat} {i : Fin 15}

/-! ## The parts of the owners, as what stops voices -/

theorem Stops.of_announces (h : Announces s t) (groups : t.groups = s.groups) (releases : KeepsReleases s t) : Stops o A s t := by
  have hacts : ActsOnly 0 A s t := h.acts
  exact {
    cfg := by rw [h.frame]
    mode := by rw [h.frame]
    cues := hacts.cues
    requests := fun m => by rw [hacts.lines m]
    remote := hacts.remote
    passes := hacts.passes
    outcome := fun p => .inl (by rw [h.frame])
    others := hacts.others
    free := hacts.free
    claiming := fun u hu => ⟨hacts.claiming u hu, by rw [(h.voice u).rest]⟩
    claims := fun g _ => claimsOf_congr h.claims g
    flying := fun g hg => (State.hasFlying_of_claims h.claims g).trans hg
    releases := releases
    view := fun i => .inl (by rw [groups]) }

/-- GRP's part on one group that the station holds. -/
theorem State.releaseHeld_of_holder (hm : (s.cfg.groups.get i).mode = .firstWins) (hh : (s.groups.get i).holder = some s.cfg.number) :
    s.releaseHeld i = s.queueRelease (i.val + 1) := if_pos ⟨hm, hh⟩

theorem State.releaseHeld_stops (s : State) (i : Fin 15) : Stops o A s (s.releaseHeld i) := by
  unfold State.releaseHeld
  split
  next h =>
    have hreleases : KeepsReleases s (s.queueRelease (i.val + 1)) :=
      (KeepsReleases.refl s).queueRelease fun J hJ => hJ.held i (by simp [State.holdsPlace, h.2])
    exact Stops.of_announces (queueRelease_announces s _) (queueRelease_groups s _).1 hreleases
  · exact Stops.refl s

theorem State.allStopGroups_stops (s : State) : Stops o A s s.allStopGroups :=
  visit_keeps (P := Stops o A s) (fun i u hu => hu.trans (u.releaseHeld_stops i)) (fun _ _ hu => hu.trans .of_same) _ (Stops.refl s)

theorem NoRequests.allStopRequests_stops (h : NoRequests s) : Stops o A s s.allStopRequests := by
  have hlines : Stops o A s (inOrder (fun n t => State.allStopLine t n) slots s) ∧
      NoRequests (inOrder (fun n t => State.allStopLine t n) slots s) := by
    refine inOrder_keeps (P := fun u => Stops o A s u ∧ NoRequests u) (fun n u hu => ?_) slots ⟨Stops.refl s, h⟩
    have hsame : u.withdrawRequest n = u := by
      unfold State.withdrawRequest
      rw [hu.2.lines n]
    have hline : Stops o A u (u.allStopLine n) := by
      unfold State.allStopLine
      rw [hsame]
      refine Stops.of_same (requests := fun m => ?_)
      rw [State.line_setLine]
      split
      next e => rw [e]; rfl
      · rfl
    exact ⟨hu.1.trans hline, hu.2.of_stops hline⟩
  rw [State.allStopRequests_eq, State.withdrawRemote, hlines.2.remote]
  exact hlines.1

/-- VCE's part: every voice has its turn. -/
theorem NoRequests.allStopVoices_stops (h : NoRequests s) (hno : NoClaimFlies s) (k : Nat) :
    Stops .withdrawn (fun _ => True) s (s.allStopVoices k) ∧
      ∀ v, ∃ x, StopTurn .withdrawn (· ≠ v) v s x ((x.stopVoice k v).settlePasses) (s.allStopVoices k) := by
  obtain ⟨hstops, hturns⟩ := h.visitFrom_stops (o := .withdrawn) (J := fun _ => NoClaimFlies)
    (f := fun v t => (State.stopVoice t k v).settlePasses) (fun a x y B hxy _ hx => hxy.noClaimFlies hx)
    (fun a x hx hfly => hx.stopVoice_stops hfly k a) _ slots (Nat.le_refl _) (by decide) fun _ _ => hno
  refine ⟨hstops.mono fun _ _ => trivial, fun v => ?_⟩
  obtain ⟨x, hx⟩ := hturns v (mem_slots v)
  exact ⟨x, hx.requests, hx.before.mono fun _ => And.right, hx.turn, hx.after.mono fun _ => And.right, fun hno => hno rfl⟩

theorem NoRequests.allStopPart_stops (h : NoRequests s) (hno : NoClaimFlies s) (k : Nat) (p : AllStopPart) :
    Stops .withdrawn (fun _ => True) s (s.allStopPart k p) ∧ (p ≠ .voices → Stops .withdrawn (fun _ => False) s (s.allStopPart k p)) := by
  cases p with
  | requests => exact ⟨h.allStopRequests_stops, fun _ => h.allStopRequests_stops⟩
  | voices => exact ⟨(h.allStopVoices_stops hno k).1, fun hne => absurd rfl hne⟩
  | groups => exact ⟨s.allStopGroups_stops, fun _ => s.allStopGroups_stops⟩

/-! ## The three parts in any order (R71; log entry 30) -/

/-- The parts of TRG, VCE and GRP in the all-stop, in an order the spec does not give. -/
def State.allStopParts (s : State) (k : Nat) : State :=
  visit (fun p t => State.allStopPart t k p) [.requests, .voices, .groups] s

theorem State.allStop_eq (s : State) (k : Nat) : s.allStop k = s.takeTrips.allStopOutput.allStopParts k := rfl

/-- The part p of the all-stop begins at x: what comes before it and after it acts on voices that B picks. -/
theorem NoRequests.allStopParts_turn (h : NoRequests s) (hno : NoClaimFlies s) (k : Nat) (p : AllStopPart) (B : Fin 8 → Prop)
    (hB : ∀ q, q ≠ p → ∀ u, NoRequests u → NoClaimFlies u → Stops .withdrawn B u (u.allStopPart k q)) :
    ∃ x, (NoRequests x ∧ NoClaimFlies x) ∧ Stops .withdrawn B s x ∧ Stops .withdrawn B (x.allStopPart k p) (s.allStopParts k) := by
  have hchoice : ∀ (A : Fin 8 → Prop) (u : State) (n : Nat), Stops .withdrawn A u { u with choices := n } := fun A u n => Stops.of_same
  have hkept : ∀ {A : Fin 8 → Prop} {u w : State}, NoRequests u ∧ NoClaimFlies u → Stops .withdrawn A u w →
      NoRequests w ∧ NoClaimFlies w := fun hu hw => ⟨hu.1.of_stops hw, hw.noClaimFlies hu.2⟩
  have hmem : p ∈ [AllStopPart.requests, .voices, .groups] := by cases p <;> decide
  exact visitFrom_turn (f := fun p t => State.allStopPart t k p) (I := fun u => NoRequests u ∧ NoClaimFlies u)
    (R := Stops .withdrawn B) Stops.refl Stops.trans (fun u n hu => ⟨hkept hu (hchoice B u n), hchoice B u n⟩) _ _ (Nat.le_refl _)
    (by decide) hmem (fun u hu => hkept hu (hu.1.allStopPart_stops hu.2 k p).1)
    (fun q _ hq u hu => ⟨hkept hu (hB q hq u hu.1 hu.2), hB q hq u hu.1 hu.2⟩) ⟨h, hno⟩

/-- A turn within a longer run that leaves the voices outside it alone. -/
theorem StopTurn.within (h : StopTurn o A v s x y t) (hs : Stops o (fun _ => False) z s) (ht : Stops o (fun _ => False) t u) :
    StopTurn o A v z x y u :=
  ⟨h.requests, (hs.mono fun _ => False.elim).trans h.before, h.turn, h.after.trans (ht.mono fun _ => False.elim), h.own⟩

/-- The all-stop stops every voice. -/
theorem NoRequests.allStopParts_stopped (h : NoRequests s) (hno : NoClaimFlies s) (k : Nat) (v : Fin 8) :
    StoppedVoice s s (s.allStopParts k) k v := by
  obtain ⟨x, ⟨hx, hxno⟩, hbefore, hafter⟩ := h.allStopParts_turn hno k .voices (fun _ => False)
    fun q hq u hu hfly => (hu.allStopPart_stops hfly k q).2 hq
  obtain ⟨-, hturns⟩ := hx.allStopVoices_stops hxno k
  obtain ⟨p, hp⟩ := hturns v
  exact (hp.within hbefore hafter).stopped hno

theorem Stops.holder (h : Stops o A s t) (i : Fin 15) : (t.groups.get i).holder = (s.groups.get i).holder := by
  rcases h.view i with he | he <;> rw [he]

/-- GRP's part queues a RELEASE for a group that the station holds. -/
theorem State.allStopGroups_turn (hm : (s.cfg.groups.get i).mode = .firstWins) (hh : (s.groups.get i).holder = some s.cfg.number) :
    ∃ x, Stops o A s x ∧ Stops o A (x.queueRelease (i.val + 1)) s.allStopGroups := by
  have hheld : i ∈ s.heldPlaces := by
    unfold State.heldPlaces
    rw [List.mem_filter, hm, hh]
    exact ⟨mem_groupPlaces i, by simp⟩
  obtain ⟨x, -, hbefore, hafter⟩ := visitFrom_turn (f := fun i t => State.releaseHeld t i) (I := fun _ => True) (R := Stops o A)
    Stops.refl Stops.trans (fun u n _ => ⟨trivial, Stops.of_same⟩) _ s.heldPlaces (Nat.le_refl _) (List.Nodup.filter _ (by decide)) hheld
    (fun _ _ => trivial) (fun j _ _ u _ => ⟨trivial, u.releaseHeld_stops j⟩) (s := s) trivial
  rw [State.releaseHeld_of_holder (by rw [hbefore.cfg]; exact hm) (by rw [hbefore.holder, hbefore.cfg]; exact hh)] at hafter
  exact ⟨x, hbefore, hafter⟩

/-- The all-stop queues a RELEASE for a group that the station holds, or loses a frame at a full queue. -/
theorem NoRequests.allStopParts_release (h : NoRequests s) (hno : NoClaimFlies s) (k : Nat) (hrun : s.mode = .run)
    (hm : (s.cfg.groups.get i).mode = .firstWins) (hh : (s.groups.get i).holder = some s.cfg.number) :
    ((s.allStopParts k).hasRelease (i.val + 1) ∨ (s.allStopParts k).flag .txqDrop = true) ∧
      ∀ J, RoomFor J s → (s.allStopParts k).hasRelease (i.val + 1) := by
  obtain ⟨x, -, hx, hafter⟩ := h.allStopParts_turn hno k .groups (fun _ => True)
    fun q _ u hu hfly => (hu.allStopPart_stops hfly k q).1
  obtain ⟨y, hy, hthen⟩ := State.allStopGroups_turn (s := x) (o := .withdrawn) (A := fun _ => True) (i := i)
    (by rw [hx.cfg]; exact hm) (by rw [hx.holder, hx.cfg]; exact hh)
  have hbefore := hx.trans hy
  have hlater : KeepsReleases (y.queueRelease (i.val + 1)) (s.allStopParts k) := hthen.releases.trans hafter.releases
  have hqueued : ∀ J, _ := fun J => State.queueRelease_hasRelease (J := J) (s := y) (hbefore.mode.trans hrun) i
  have hheld : ∀ J, RoomFor J y → J i = true := fun J hJ =>
    hJ.held i (by simp [State.holdsPlace, hbefore.holder, hbefore.cfg, hh])
  refine ⟨(hqueued fun _ => true).1.elim (hlater.kept _) fun hf => .inr (hlater.flag hf), fun J hJ => ?_⟩
  obtain ⟨hJy, -⟩ := hbefore.releases.room J hJ
  obtain ⟨hJq, -⟩ := ((KeepsReleases.refl y).queueRelease hheld).room J hJy
  exact (hlater.room J hJq).2 _ ((hqueued J).2 (hheld J hJy) hJy)

theorem Completes.exec_allStop {target : Byte} {fade : BitVec 3} (h : Completes s sender (.stop target 255 fade) base) :
    exec (.stop sender target 255 fade) s = .next (if base.addressed target then base.allStop fade.toNat else base) := h.exec_stop

/-- A queue that has room for the RELEASE of every group held, where no voice is announced (R148). -/
theorem RoomFor.of_length (quiet : ∀ v, (s.voice v).announce = .localOnly)
    (room : s.queue.length + (groupPlaces.filter fun j => s.holdsPlace j).length ≤ 8) : RoomFor (fun j => s.holdsPlace j) s where
  quiet := quiet
  held := fun _ => id
  room := by
    have hfewer : (s.unreleased fun j => s.holdsPlace j).Sublist (groupPlaces.filter fun j => s.holdsPlace j) :=
      List.monotone_filter_right _ fun j hj => (Bool.and_eq_true _ _ ▸ hj).1
    exact (Nat.add_le_add_left hfewer.length_le _).trans room

/-- Settles O56: OUT's part (`State.allStopOutput_eq`), TRG's (`State.allStop_calms`), VCE's (`NoRequests.allStopParts_stopped`) and GRP's
(`NoRequests.allStopParts_release`), whatever their order. -/
theorem allStopEndsEverything : Obligations.AllStopEndsEverything := by
  intro s base sender target k h hw
  have hsame : exec (.allStop sender target k) s = exec (.stop sender target 255 k) s := rfl
  rw [hsame, h.exec_allStop]
  refine ⟨fun ht => by rw [if_neg (ht ∘ (h.addressed_iff target).mp)], fun ht => ?_⟩
  rw [if_pos ((h.addressed_iff target).mpr ht)]
  obtain ⟨fl, hz, htrips⟩ := base.allStopOutput_eq
  obtain ⟨hcalms, hcleared, hremote⟩ := base.allStop_calms k.toNat
  have hkept := base.allStop_kept k.toNat
  have hparts := base.allStop_eq k.toNat
  have hpair : ∀ o, base.pair o = s.pair o := fun o => (congrArg (fun u => State.pair u o) h.frame :)
  refine ⟨base.allStop k.toNat, rfl, rfl, fun n => ⟨(hcleared n).request, (hcleared n).penalty, (hcleared n).owed⟩, hremote,
    fun o => ?_, fun o hp hr => ?_, ?_, fun hn => ?_⟩
  · rw [← hpair]
    rw [hz] at hkept
    cases o with
    | pgm => exact hkept.pgm
    | floor => exact hkept.floor
  · refine hcalms.trip (htrips o ?_)
    rw [hpair, Pair.tripDue, hp]
    exact decide_eq_true hr
  · rw [hz] at hkept
    exact hkept.ducks.trans (congrArg State.ducks h.frame :)
  · have hbase := h.requests hn
    have hno : NoClaimFlies base := fun g => hasFlying_of_waits (h.waits hw) _
    rw [hz] at hparts
    generalize hout : { base with pgm := base.pgm.allStop, floor := base.floor.allStop, flags := fl } = z at hparts
    have hz : NoRequests z ∧ NoClaimFlies z ∧ (∀ v, z.voice v = s.voice v) ∧ z.cues = s.cues ∧ z.queue = base.queue ∧
        z.groups = s.groups ∧ z.cfg = s.cfg ∧ z.mode = s.mode := by
      rw [← hout]
      exact ⟨⟨hbase.lines, hbase.remote, hbase.passes⟩, hno, h.voice, (congrArg State.cues h.frame :), rfl, h.groups, h.cfg,
        (congrArg State.mode h.frame :)⟩
    obtain ⟨hrequests, hfly, hvoice, hcues, hqueue, hgroups, hcfg, hmode⟩ := hz
    rw [hparts]
    refine ⟨fun v => (hrequests.allStopParts_stopped hfly k.toNat v).congr hvoice hcues hqueue, fun i hrun hm hh => ?_⟩
    rw [← hmode] at hrun
    rw [← hcfg] at hm hh ⊢
    rw [← hgroups] at hh ⊢
    obtain ⟨hreleased, hroom⟩ := hrequests.allStopParts_release hfly k.toNat hrun hm hh
    refine ⟨hreleased, fun hquiet hlength => hroom _ (RoomFor.of_length (fun v => by rw [hvoice]; exact hquiet v) ?_)⟩
    rw [hqueue]
    exact hlength

end Sys2Proof.Machine
end
section
/-! PROOF. The remaining time of a voice (RemainingTimeIsTheSmallerBound). -/

namespace Sys2Proof.Machine

set_option Elab.async false

variable {w : Voice} {q : Cue}

/-! ## The two bounds (R67) -/

theorem Voice.dataBound_of_end {n : Nat} (h : w.pathEnd q = some n) : w.dataBound q = some (ceilDiv (n - w.playOffset) 480) := by
  unfold Voice.dataBound
  rw [h]
  rfl

theorem Voice.dataBound_of_endless (h : w.pathEnd q = none) : w.dataBound q = none := by
  unfold Voice.dataBound
  rw [h]
  rfl

theorem Voice.fadeBound_of_fade {k : Nat} (h : w.state = .releasing ∧ w.rate = some (.fade k)) :
    w.fadeBound = some (ceilDiv (w.level * 2 ^ (k + 2)) 480) := by
  unfold Voice.fadeBound
  rw [h.1, h.2]
  rfl

theorem Voice.fadeBound_of_cut (h : w.state = .releasing ∧ w.rate = some .cut) : w.fadeBound = some 1 := by
  unfold Voice.fadeBound
  rw [h.1, h.2]

/-- A voice that is in no fade and no cut has no fade bound. -/
theorem Voice.fadeBound_of_neither (hfade : ∀ k, ¬(w.state = .releasing ∧ w.rate = some (.fade k)))
    (hcut : ¬(w.state = .releasing ∧ w.rate = some .cut)) : w.fadeBound = none := by
  unfold Voice.fadeBound
  split
  next k hs hr => exact absurd ⟨hs, hr⟩ (hfade k)
  next hs hr => exact absurd ⟨hs, hr⟩ hcut
  · rfl

/-- Settles O39: the data bound by whether the path ends, the fade bound by the rate of a RELEASING voice. -/
theorem remainingTimeIsTheSmallerBound : Obligations.RemainingTimeIsTheSmallerBound := by
  intro w q fading
  unfold Voice.remainingTime
  refine ⟨fun n k hn hf => ?_, fun n hn hf => ?_, fun n hn hno hcut => ?_, fun k hn hf => ?_, fun hn hf => ?_, fun hn hno hcut => ?_⟩
  · rw [Voice.dataBound_of_end hn, Voice.fadeBound_of_fade hf]
    rfl
  · rw [Voice.dataBound_of_end hn, Voice.fadeBound_of_cut hf]
    rfl
  · rw [Voice.dataBound_of_end hn, Voice.fadeBound_of_neither hno hcut]
    rfl
  · rw [Voice.dataBound_of_endless hn, Voice.fadeBound_of_fade hf]
    rfl
  · rw [Voice.dataBound_of_endless hn, Voice.fadeBound_of_cut hf]
    rfl
  · rw [Voice.dataBound_of_endless hn, Voice.fadeBound_of_neither hno hcut]
    rfl

end Sys2Proof.Machine
end
section
/-! PROOF. The station's own START, END and HOLD complete (OwnStartEndAndHoldComplete). -/

namespace Sys2Proof.Machine

set_option Elab.async false

variable {s : State} {e : Entry} {v : Fin 8}

/-! ## The voice that a tag names (R49) -/

theorem tagSlot_tag (s : State) (v : Fin 8) : tagSlot (s.tag v) = v := by
  apply Fin.ext
  change ((s.voice v).generation * 8 + v.val) % 256 % 8 = v.val
  have := v.isLt
  omega

/-- The own frame in flight has completed: the station's part, then its owner's (R141, R142). -/
theorem State.completeOwn_of_flying {heard : Bool} {p : Frame → Bool} (hfly : s.flying = some e) (hp : p e.frame = true) :
    s.completeOwn heard p = (s.sent heard).applyOwn e.frame := by
  unfold State.completeOwn
  rw [hfly]
  dsimp only
  rw [if_pos hp, State.flightDone_eq_sent]

theorem State.sent_frame (s : State) (heard : Bool) :
    (s.sent heard).voices = s.voices ∧ (s.sent heard).owedEnd = s.owedEnd ∧ (s.sent heard).cfg = s.cfg := by
  cases heard <;> exact ⟨rfl, rfl, rfl⟩

theorem State.sent_voice (s : State) (heard : Bool) (v : Fin 8) : (s.sent heard).voice v = s.voice v := by
  unfold State.voice
  rw [(s.sent_frame heard).1]

theorem State.sent_tag (s : State) (heard : Bool) (v : Fin 8) : (s.sent heard).tag v = s.tag v := by
  unfold State.tag
  rw [State.sent_voice]

/-! ## HOLD (R68) -/

theorem State.ownHold_of_announced {k h : Nat} (ha : (s.voice v).announce = .announced k) :
    s.ownHold (s.tag v) h = s.setVoice v { s.voice v with announce := .announced h } := by
  unfold State.ownHold
  rw [tagSlot_tag]
  dsimp only
  rw [ha]
  exact if_pos rfl

/-- A HOLD for a tag that no ANNOUNCED voice has sets nothing. -/
theorem State.ownHold_of_none {tag h : Nat} (hno : ∀ v k, s.tag v = tag → (s.voice v).announce ≠ .announced k) :
    s.ownHold tag h = s := by
  unfold State.ownHold
  dsimp only
  split
  next k ha => exact if_neg fun ht => hno _ k ht ha
  · rfl
  · rfl

/-! ## START (R65, R66) -/

theorem State.ownStart_of_queued {h : Nat} (ha : (s.voice v).announce = .queued) :
    s.ownStart (s.tag v) h = s.setVoice v { s.voice v with announce := .announced h } := by
  unfold State.ownStart
  rw [tagSlot_tag]
  exact if_pos ⟨rfl, ha⟩

/-- A START whose tag no QUEUED voice has, and for whose tag no END is owed, changes nothing. -/
theorem State.ownStart_of_not_owed {tag : Nat} (h : Nat) (hno : ∀ v, s.tag v = tag → (s.voice v).announce ≠ .queued)
    (howed : ∀ o, s.owedEnd = some o → o.tag ≠ tag) : s.ownStart tag h = s := by
  unfold State.ownStart
  refine (if_neg fun hq => hno _ hq.1 hq.2).trans ?_
  split
  next o ho => exact if_neg (howed o ho)
  · rfl

theorem State.ownStart_of_owed {tag : Nat} {o : OwedEnd} (h : Nat) (hno : ∀ v, s.tag v = tag → (s.voice v).announce ≠ .queued)
    (ho : s.owedEnd = some o) (ht : o.tag = tag) :
    s.ownStart tag h = { s with owedEnd := none }.offer (endFrameOf o.tag o.group) := by
  unfold State.ownStart
  refine (if_neg fun hq => hno _ hq.1 hq.2).trans ?_
  rw [ho]
  exact if_pos ht

/-- The END of a tag that no START in the queue has joins the queue while there is room, and nothing else changes (R145). -/
theorem offer_end_of_room (tag g : Byte) (h : ∀ x ∈ s.queue, x.frame.isStartOf tag.toNat = false) (hroom : s.hasRoom) :
    s.offer (.endFrame tag g) = { s with queue := placeEntry (newEntry (.endFrame tag g) s.cfg.number) s.queue } := by
  have hno : ¬s.hasWaiting (Frame.isStartOf tag.toNat) = true := fun hw => by
    obtain ⟨x, hx, hp⟩ := List.any_eq_true.mp hw
    rw [h x hx, Bool.and_false] at hp
    cases hp
  unfold State.offer State.offerKey
  dsimp only
  rw [if_neg hno, place_of_room _ _ hroom]

/-- Settles O49: `State.ownHold` and `State.ownStart` by whether a voice has the tag of the frame, on the station after its frame. -/
theorem ownStartEndAndHoldComplete : Obligations.OwnStartEndAndHoldComplete := by
  intro s heard e hfly base
  have htag : ∀ v, base.tag v = s.tag v := s.sent_tag heard
  have hvoice : ∀ v, base.voice v = s.voice v := s.sent_voice heard
  refine ⟨fun tag g he => ?_, fun tag h he => ?_, fun g c tag em d h he => ?_⟩
  · have hexec : exec (.ownEndComplete heard) s = .next (base.applyOwn e.frame) :=
      congrArg Host.Outcome.next (State.completeOwn_of_flying hfly (by rw [he]; rfl))
    rw [hexec, he]
    rfl
  · have hexec : exec (.ownHoldComplete heard) s = .next (base.ownHold tag.toNat h.toNat) := by
      refine congrArg Host.Outcome.next ((State.completeOwn_of_flying hfly (by rw [he]; rfl)).trans ?_)
      rw [he]
      rfl
    rw [hexec]
    refine ⟨fun v k ht ha => ?_, fun hno => ?_⟩
    · rw [← ht, ← htag, State.ownHold_of_announced (by rw [hvoice]; exact ha), hvoice]
    · rw [State.ownHold_of_none fun v k => by rw [htag, hvoice]; exact hno v k]
  · have hexec : exec (.ownStartComplete heard) s = .next (base.ownStart tag.toNat h.toNat) := by
      refine congrArg Host.Outcome.next ((State.completeOwn_of_flying hfly (by rw [he]; rfl)).trans ?_)
      rw [he]
      rfl
    have howedEnd : base.owedEnd = s.owedEnd := (s.sent_frame heard).2.1
    rw [hexec]
    refine ⟨fun v ht ha => ?_, fun hno => ?_⟩
    · rw [← ht, ← htag, State.ownStart_of_queued (by rw [hvoice]; exact ha), hvoice]
    have hnone : ∀ v, base.tag v = tag.toNat → (base.voice v).announce ≠ .queued := fun v => by rw [htag, hvoice]; exact hno v
    refine ⟨fun howed => ?_, fun o ho ht hlaw hclear => ?_⟩
    · rw [State.ownStart_of_not_owed _ hnone fun o ho => howed o (howedEnd.symm.trans ho)]
    · have hroom : base.hasRoom := State.hasRoom_sent hfly hlaw.size heard
      have hbyte : BitVec.ofNat 8 o.tag = tag := by rw [ht, BitVec.ofNat_toNat, BitVec.setWidth_eq]
      have hnumber : base.cfg = s.cfg := (s.sent_frame heard).2.2
      rw [State.ownStart_of_owed _ hnone (howedEnd.trans ho) ht, endFrameOf, hbyte,
        offer_end_of_room (s := { base with owedEnd := none }) tag _ hclear hroom]
      dsimp only
      rw [hnumber]
      exact ⟨_, placeEntry_placed _ _, rfl⟩

end Sys2Proof.Machine
end
section
/-! PROOF. A frame offered to a full queue (FullQueueEvictsTheLeastUrgent). -/

namespace Sys2Proof.Machine

set_option Elab.async false

variable {s : State} {a b : List Entry} {e : Entry} {k : Nat}

/-! ## The entry that is evicted (R148) -/

theorem filter_waiting_of_flying (hb : ∀ x ∈ b, x.inFlight = true) : b.filter (fun x => x.waiting) = [] :=
  List.filter_eq_nil_iff.mpr fun x hx hw => by
    rw [Entry.waiting, hb x hx] at hw
    cases hw

/-- The last waiting entry is the victim of a frame of a smaller kind. -/
theorem victimOf_eq (he : e.inFlight = false) (hb : ∀ x ∈ b, x.inFlight = true) (hk : k < e.kind) :
    victimOf k (a ++ e :: b) = some e := by
  have hlast : ((a ++ e :: b).filter fun x => x.waiting).getLast? = some e := by
    rw [List.filter_append, List.filter_cons_of_pos (by rw [Entry.waiting, he]; rfl), filter_waiting_of_flying hb]
    exact List.getLast?_concat
  unfold victimOf
  rw [hlast]
  exact if_pos hk

/-- A frame has no victim among entries of its own kind and of the kinds before it. -/
theorem victimOf_eq_none {q : List Entry} (h : ∀ x ∈ q, x.inFlight = false → x.kind ≤ k) : victimOf k q = none := by
  unfold victimOf
  split
  next x hx =>
    obtain ⟨hmem, hw⟩ := List.mem_filter.mp (List.mem_of_getLast? hx)
    exact if_neg (Nat.not_lt.mpr (h x hmem ((Bool.not_eq_true' _).mp hw)))
  · rfl

theorem dropLastWaiting_eq (he : e.inFlight = false) (hb : ∀ x ∈ b, x.inFlight = true) : dropLastWaiting (a ++ e :: b) = a ++ b := by
  have hrev : (a ++ e :: b).reverse = b.reverse ++ e :: a.reverse := by
    rw [List.reverse_append, List.reverse_cons, List.append_assoc]
    rfl
  have hnone : b.reverse.findIdx? (fun x => x.waiting) = none := List.findIdx?_eq_none_iff.mpr fun x hx => by
    rw [Entry.waiting, hb x (List.mem_reverse.mp hx)]
    rfl
  have hfind : (a ++ e :: b).reverse.findIdx? (fun x => x.waiting) = some b.reverse.length := by
    rw [hrev, List.findIdx?_append, hnone, List.findIdx?_cons, Entry.waiting, he]
    exact congrArg some (Nat.zero_add _)
  unfold dropLastWaiting
  rw [hfind]
  dsimp only
  rw [hrev, List.eraseIdx_append_of_length_le (Nat.le_refl _), Nat.sub_self, List.eraseIdx_cons_zero, List.reverse_append,
    List.reverse_reverse, List.reverse_reverse]

/-! ## The frame that is placed, and the one that is lost (R148, R149) -/

/-- A full queue evicts its last waiting entry for a frame of a smaller kind, whose owner has its part in the loss. -/
theorem place_of_victim (f : Frame) (key : Nat) (hfull : Config.queueSize ≤ s.queue.length) (hq : s.queue = a ++ e :: b)
    (he : e.inFlight = false) (hb : ∀ x ∈ b, x.inFlight = true) (hk : f.kind < e.kind) :
    (s.place f key).1 =
      ({ s with queue := placeEntry (newEntry f key) (a ++ b) }.latch .txqDrop).evicted e.frame := by
  unfold State.place
  dsimp only
  rw [if_neg (Nat.not_lt.mpr hfull), hq, victimOf_eq he hb hk, dropLastWaiting_eq he hb]
  rfl

theorem place_of_no_victim (f : Frame) (key : Nat) (hfull : Config.queueSize ≤ s.queue.length)
    (h : ∀ x ∈ s.queue, x.inFlight = false → x.kind ≤ f.kind) : (s.place f key).1 = s.latch .txqDrop := by
  unfold State.place
  dsimp only
  rw [if_neg (Nat.not_lt.mpr hfull), victimOf_eq_none h]

theorem evicted_of_not_start {f : Frame} (h : ∀ g c tag em d hd, f ≠ .start g c tag em d hd) : s.evicted f = s := by
  cases f
  case start g c tag em d hd => exact absurd rfl (h g c tag em d hd)
  all_goals rfl

theorem State.loseStart_of_queued {v : Fin 8} (h : (s.voice v).announce = .queued) :
    s.loseStart (s.tag v) = s.setVoice v { s.voice v with announce := .localOnly } := by
  unfold State.loseStart
  rw [tagSlot_tag]
  exact if_pos ⟨rfl, h⟩

/-- The entries ahead of another in a lawful queue are of its kind or of a kind before it (R144). -/
theorem QueueLaw.kind_le (h : QueueLaw (a ++ e :: b)) : ∀ x ∈ a, x.kind ≤ e.kind := fun x hx =>
  (List.pairwise_append.mp h.order).2.2 x hx e List.mem_cons_self

/-- The press of a SEND line of action RELEASE offers a RELEASE in RUN (R31). -/
theorem execSendPress_of_release {n : Fin 8} {g : Byte} (hrun : s.mode = .run) (ha : (s.lineConfig n).action = .sendRelease g) :
    exec (.sendPress n) s = .next ((s.setLine n ((s.line n).acting true)).place (.release g) s.cfg.number).1 := by
  rw [execSendPress_of_send (by rw [hrun]; exact nofun) (by rw [ha]; rfl), ha]
  exact congrArg Host.Outcome.next (if_pos (decide_eq_true hrun))

/-- Settles O35: the offer of the RELEASE evicts the last waiting entry (`place_of_victim`) or is lost (`place_of_no_victim`). -/
theorem fullQueueEvictsTheLeastUrgent : Obligations.FullQueueEvictsTheLeastUrgent := by
  intro s n g hrun hlaw hlen ha
  rw [execSendPress_of_release hrun ha]
  have hfull : Config.queueSize ≤ (s.setLine n ((s.line n).acting true)).queue.length := Nat.le_of_eq hlen.symm
  refine ⟨fun a e b hq he hb hk => ?_, fun hno => ?_⟩
  · rw [place_of_victim (.release g) s.cfg.number hfull hq he hb hk]
    generalize hz : { s.setLine n ((s.line n).acting true) with
      queue := placeEntry (newEntry (.release g) s.cfg.number) (a ++ b) }.latch .txqDrop = z
    have hvoices : z.voices = s.voices := by rw [← hz]; rfl
    have hvoice : ∀ v, z.voice v = s.voice v := fun v => by rw [← hz]; rfl
    have hplaced : Placed (a ++ b) z.queue (newEntry (.release g) s.cfg.number) := by rw [← hz]; exact placeEntry_placed _ _
    have hflag : z.flag .txqDrop = true ∧ z.newMark .txqDrop = true := by
      rw [← hz]
      exact ⟨State.flag_latch_self _ _, State.newMark_latch_self _ _⟩
    obtain ⟨vs, hevicted⟩ := evicted_eq (s := z) e.frame
    refine ⟨_, rfl, ?_, ?_, ?_, (hq ▸ hlaw).kind_le, fun g' c tag em d hd hf v ht _ hv => ?_, fun hno => ?_⟩
    · rw [hevicted]
      exact hplaced
    · rw [hevicted]
      exact hflag.1
    · rw [hevicted]
      exact hflag.2
    · have htag : z.tag v = tag.toNat := (congrArg (fun w : Voice => (w.generation * 8 + v.val) % 256) (hvoice v)).trans ht
      have hlost : z.evicted e.frame = z.loseStart (z.tag v) := by
        rw [hf, htag]
        rfl
      rw [hlost, State.loseStart_of_queued (by rw [hvoice]; exact hv), State.voice_setVoice_self, hvoice]
    · rw [evicted_of_not_start hno, hvoices]
  · rw [place_of_no_victim (.release g) s.cfg.number hfull hno]
    exact ⟨_, rfl, rfl, rfl, State.flag_latch_self _ _, State.newMark_latch_self _ _⟩

end Sys2Proof.Machine
end
section
/-! PROOF. Another station's CLAIM completes (AnothersClaimNamesItOrIsAnswered). -/

namespace Sys2Proof.Machine

set_option Elab.async false

variable {s t : State} {src : BitVec 5} {v : Fin 8} {i : Fin 15} {n : Nat} {o : RequestOutcome} {A : Fin 8 → Prop}

/-! ## A frame of another station -/

theorem Hears.completes (h : Hears s src) (f : Frame) : Completes s (.other src) f s.counted := ⟨h, rfl⟩

theorem Hears.exec_claim (h : Hears s src) (g c : Byte) : exec (.claim src g c) s = .next (s.counted.foreignClaim src.toNat g.toNat) :=
  congrArg Host.Outcome.next (h.completes (.claim g c)).completeFrame

theorem NamesGroup.groupPlace {g : Byte} (h : NamesGroup g i) : groupPlace g.toNat = some i := groupPlace_eq_some.mpr h.symm

/-! ## The station's claim is withdrawn (R53, R82, R86) -/

theorem State.withdrawClaim_of_no_claimant (h : NoClaimant s n) (o : RequestOutcome) : s.withdrawClaim n o = s := by
  unfold State.withdrawClaim
  rw [h.claimant]

/-- Where no request is pending, a withdrawn claim leaves its voice FREE, and no more is done. -/
theorem NoRequests.withdrawClaim_of_claimant (h : NoRequests s) (hc : s.claimant n = some v) (hq : s.claimQueued v = true) :
    s.withdrawClaim n o = (s.claimEnded v o).freedLeft v := by
  unfold State.withdrawClaim
  rw [hc]
  exact (if_pos hq).trans (h.withdraw v o)

theorem OnlyClaimant.claimQueued (h : OnlyClaimant s n v) (hw : s.hasWaiting (Frame.isClaimOf n) = true) : s.claimQueued v = true :=
  State.claimQueued_iff.mpr ⟨h.state, by rw [h.group]; exact hw⟩

/-- A withdrawal by itself is the turn of its voice. -/
theorem NoRequests.withdraw_turn (h : NoRequests s) (hc : (s.voice v).state = .claiming) (hv : ¬A v) :
    StopTurn o A v s s ((s.claimEnded v o).freedLeft v) ((s.claimEnded v o).freedLeft v) :=
  ⟨h, Stops.refl s, withdraw_stops hc, Stops.refl _, hv⟩

/-! ## HELD (R83) -/

theorem State.queueHeld_of_not (h : s.mode ≠ .run ∨ s.hasFrame (Frame.isHeldOf n) = true) : s.queueHeld n = s := by
  refine if_neg fun hq => ?_
  rw [Bool.and_eq_true, Bool.not_eq_true'] at hq
  exact h.elim (fun hm => hm (of_decide_eq_true hq.1)) fun hf => Bool.false_ne_true (hq.2.symm.trans hf)

theorem State.queueHeld_of_room (g : Byte) (hrun : s.mode = .run) (hno : s.hasFrame (Frame.isHeldOf g.toNat) = false)
    (hroom : s.hasRoom) :
    s.queueHeld g.toNat = { s with queue := placeEntry (newEntry (.held g) s.cfg.number) s.queue } := by
  have hq : (s.isRun && !s.hasFrame (Frame.isHeldOf g.toNat)) = true := by
    rw [hno, State.isRun, decide_eq_true hrun]
    rfl
  have hbyte : BitVec.ofNat 8 g.toNat = g := by rw [BitVec.ofNat_toNat, BitVec.setWidth_eq]
  unfold State.queueHeld
  rw [if_pos hq, hbyte]
  exact congrArg Prod.fst (place_of_room (.held g) s.cfg.number hroom)

/-! ## The CLAIM (R82, R83) -/

theorem State.foreignClaim_of_unclaimed (src : Nat) (h : ∀ i, groupPlace n = some i → (s.cfg.groups.get i).mode ≠ .firstWins) :
    s.foreignClaim src n = s := by
  unfold State.foreignClaim
  split
  · rfl
  next i hi => exact if_neg (h i hi)

theorem State.foreignClaim_of_free (src : Nat) (hi : groupPlace n = some i) (hm : (s.cfg.groups.get i).mode = .firstWins)
    (hh : (s.groups.get i).holder = none) :
    s.foreignClaim src n =
      (s.setGroup i { s.groups.get i with holder := some src, lastWinner := src }).withdrawClaim n .lost := by
  unfold State.foreignClaim
  rw [hi]
  dsimp only
  rw [if_pos hm, hh]

theorem State.foreignClaim_of_held {h : Nat} (src : Nat) (hi : groupPlace n = some i) (hm : (s.cfg.groups.get i).mode = .firstWins)
    (hh : (s.groups.get i).holder = some h) : s.foreignClaim src n = if h = s.cfg.number then s.queueHeld n else s := by
  unfold State.foreignClaim
  rw [hi]
  dsimp only
  rw [if_pos hm, hh]

theorem Stops.lastWinner (h : Stops o A s t) (i : Fin 15) : (t.groups.get i).lastWinner = (s.groups.get i).lastWinner := by
  rcases h.view i with he | he <;> rw [he]

/-- Settles O45: `State.foreignClaim` by the holder of the group; the withdrawal of this station's claim is one turn
(`NoRequests.withdraw_turn`). -/
theorem anothersClaimNamesItOrIsAnswered : Obligations.AnothersClaimNamesItOrIsAnswered := by
  intro s src g c h hw
  rw [h.exec_claim g c]
  refine ⟨fun hno => ?_, fun i hi hm => ?_⟩
  · rw [State.foreignClaim_of_unclaimed (s := s.counted) _ fun i hi => hno i (groupPlace_eq_some.mp hi).symm]
  intro view
  refine ⟨fun hfree => ⟨fun hnone => ?_, fun v only hwait hn => ?_⟩, fun hown => ?_, fun m hheld hne => ?_⟩
  · rw [State.foreignClaim_of_free (s := s.counted) _ hi.groupPlace hm hfree]
    exact congrArg _ (State.withdrawClaim_of_no_claimant (s := s.counted.setGroup i view) hnone .lost)
  · have hnamed : NoRequests (s.counted.setGroup i view) := ⟨hn.lines, hn.remote, hn.passes⟩
    have honly : OnlyClaimant (s.counted.setGroup i view) g.toNat v := only.congr (fun _ => rfl) rfl
    have hfly : (s.counted.setGroup i view).hasFlying (Frame.isClaimOf g.toNat) = false :=
      hasFlying_of_waits ((h.completes (.claim g c)).waits hw) _
    have hturn := hnamed.withdraw_turn (o := .lost) (A := fun _ => False) honly.state id
    have heq : s.counted.foreignClaim src.toNat g.toNat = ((s.counted.setGroup i view).claimEnded v .lost).freedLeft v :=
      (State.foreignClaim_of_free (s := s.counted) _ hi.groupPlace hm hfree).trans
        (hnamed.withdrawClaim_of_claimant honly.claimant (honly.claimQueued hwait))
    rw [heq]
    obtain ⟨hvoice, hclaim, houtcome⟩ := hturn.withdrawn rfl honly hfly
    refine ⟨_, rfl, ?_, ?_, hvoice, hclaim, houtcome, fun u hu => hturn.turn.others u hu⟩
    · exact (hturn.turn.holder i).trans (congrArg GroupView.holder (Table.get_set_self _ _ _))
    · exact (hturn.turn.lastWinner i).trans (congrArg GroupView.lastWinner (Table.get_set_self _ _ _))
  · have heq : s.counted.foreignClaim src.toNat g.toNat = s.counted.queueHeld g.toNat :=
      (State.foreignClaim_of_held (s := s.counted) _ hi.groupPlace hm hown).trans (if_pos rfl)
    rw [heq]
    refine ⟨fun hrun hno hroom => ?_, fun hnot => ?_⟩
    · rw [State.queueHeld_of_room (s := s.counted) g hrun hno hroom]
      exact ⟨_, placeEntry_placed _ _, rfl⟩
    · rw [State.queueHeld_of_not (s := s.counted) hnot]
  · exact congrArg _ ((State.foreignClaim_of_held (s := s.counted) _ hi.groupPlace hm hheld).trans (if_neg hne))

end Sys2Proof.Machine
end
section
/-! PROOF. Another station's START chokes a LAST_WINS group (StartChokesTheGroup). -/

namespace Sys2Proof.Machine

set_option Elab.async false

variable {s t x : State} {src : BitVec 5} {v : Fin 8} {i : Fin 15} {n : Nat} {o : RequestOutcome} {A : Fin 8 → Prop}

/-! ## The START (R77, R104) -/

theorem Hears.exec_start (h : Hears s src) (g c tag : Byte) (emit : ClassSet) (depth hold : Byte) :
    exec (.start src g c tag emit depth hold) s =
      .next ((s.counted.duckStart src.toNat tag.toNat emit depth.toNat hold.toNat).chokeGroup g.toNat) :=
  congrArg Host.Outcome.next (h.completes (.start g c tag emit depth hold)).completeFrame

/-- The duck list's part touches the list and DUCK_FULL only (R104, R105). -/
theorem State.duckStart_eq (s : State) (source tag : Nat) (emit : ClassSet) (depth hold : Nat) :
    ∃ l f, s.duckStart source tag emit depth hold = { s with ducks := l, flags := f } := by
  unfold State.duckStart
  dsimp only
  split
  · exact ⟨_, s.flags, rfl⟩
  · split
    · exact ⟨_, s.flags, rfl⟩
    · generalize addDuck (liveDucks s.ducks) _ = r
      obtain ⟨f, hf⟩ := State.latchIf_eq (s := { s with ducks := r.1 }) r.2 .duckFull
      exact ⟨r.1, f, hf⟩

theorem State.groupMode_of_place (hi : groupPlace n = some i) : s.groupMode n = (s.cfg.groups.get i).mode := by
  unfold State.groupMode
  rw [hi]

theorem State.chokeFade_of_place (hi : groupPlace n = some i) : s.chokeFade n = (s.cfg.groups.get i).chokeFade := by
  unfold State.chokeFade
  rw [hi]

/-! ## Which voices are choked (R77) -/

theorem State.chokes_iff :
    s.chokes n v = true ↔
      ((s.voice v).state = .priming ∨ (s.voice v).state = .sounding) ∧ (s.cueOf (s.voice v)).group = n ∧
        ∃ h, (s.voice v).announce = .announced h := by
  unfold State.chokes
  dsimp only
  rw [Bool.and_eq_true, Bool.and_eq_true, VoiceState.fresh_iff, decide_eq_true_iff, and_assoc]
  cases (s.voice v).announce <;> simp

theorem Untouched.announced_iff {w u : Voice} (h : Untouched w u) :
    (∃ k, u.announce = .announced k) ↔ ∃ k, w.announce = .announced k := by
  rcases h.announce with he | ⟨hw, hu⟩
  · rw [he]
  · rw [hw, hu]
    exact ⟨nofun, nofun⟩

/-- Which voices are choked is not about what stops others. -/
theorem Stops.chokes_iff (h : Stops o A s t) (hv : ¬A v) : t.chokes n v = true ↔ s.chokes n v = true := by
  have hvoice := h.others v hv
  have hcue : t.cueOf (t.voice v) = s.cueOf (s.voice v) := cueOf_congr h.cues (by rw [hvoice.rest])
  rw [State.chokes_iff, State.chokes_iff, hvoice.state, hcue, hvoice.announced_iff]

/-- The choke of one voice, where it still is to be choked. -/
def State.chokeVoice (s : State) (n : Nat) (v : Fin 8) : State :=
  if s.chokes n v then s.releaseVoice v (.fade (s.chokeFade n)) else s

theorem NoRequests.chokeVoice_stops (h : NoRequests s) (n : Nat) (v : Fin 8) : Stops o (· = v) s (s.chokeVoice n v).settlePasses := by
  unfold State.chokeVoice
  split
  next hc =>
    refine h.releaseVoice_stops (fun hs => ?_) _
    rw [State.chokes_iff, hs] at hc
    exact hc.1.elim nofun nofun
  · rw [h.settlePasses]
    exact Stops.refl s

/-- The choke of a LAST_WINS group: each voice that is choked has one turn, and the others are left. -/
theorem NoRequests.chokeGroup (h : NoRequests s) (hm : s.groupMode n = .lastWins) (o : RequestOutcome) :
    Stops o (fun v => s.chokes n v = true) s (s.chokeGroup n) ∧
      ∀ v, s.chokes n v = true → ∃ x A, StopTurn o A v s x ((x.chokeVoice n v).settlePasses) (s.chokeGroup n) := by
  have hmem : ∀ v, v ∈ slots.filter (fun v => s.chokes n v) ↔ s.chokes n v = true := fun v => by
    rw [List.mem_filter]
    exact and_iff_right (mem_slots v)
  have hvisit : s.chokeGroup n = visit (fun v t => (State.chokeVoice t n v).settlePasses) (slots.filter fun v => s.chokes n v) s :=
    if_pos hm
  obtain ⟨hstops, hturns⟩ := h.visitFrom_stops (o := o) (J := fun _ _ => True)
    (f := fun v t => (State.chokeVoice t n v).settlePasses) (fun _ _ _ _ _ _ => id)
    (fun a x hx _ => hx.chokeVoice_stops n a) _ _ (Nat.le_refl _) (slots_filter_nodup fun v => s.chokes n v) fun _ _ => trivial
  rw [hvisit]
  refine ⟨hstops.mono fun u => (hmem u).mp, fun v hv => ?_⟩
  obtain ⟨x, hx⟩ := hturns v ((hmem v).mpr hv)
  exact ⟨x, _, hx⟩

/-- A voice that is choked has been released at the choke fade index of the group. -/
theorem StopTurn.choked (h : StopTurn o A v s x ((x.chokeVoice n v).settlePasses) t) (hv : s.chokes n v = true) :
    Untouched ((s.voice v).released (.fade (s.chokeFade n))) (t.voice v) := by
  have hturn : x.chokeVoice n v = x.releaseVoice v (.fade (s.chokeFade n)) := by
    have hfade : x.chokeFade n = s.chokeFade n := by
      unfold State.chokeFade
      rw [h.before.cfg]
    rw [← hfade]
    exact if_pos ((h.before.chokes_iff h.own).mpr hv)
  have hafter := h.after.others v h.own
  rw [hturn, h.requests.releaseVoice_fade] at hafter
  exact (h.voice.released _).trans hafter

/-- What stops voices whatever outcome it would give a claimed request has given none. -/
theorem outcomes_eq_of_stops (h : ∀ o, Stops o A s t) : t.outcomes = s.outcomes := by
  apply Table.ext_get
  intro p
  rcases (h .lost).outcome p with he | hlost
  · exact he
  · rcases (h .refused).outcome p with he | hrefused
    · exact he
    · cases hlost.symm.trans hrefused

/-- Settles O52: the duck list's part touches no voice (`State.duckStart_eq`), and the choke gives each voice of the group its turn
(`NoRequests.chokeGroup`). -/
theorem startChokesTheGroup : Obligations.StartChokesTheGroup := by
  intro s src g c tag emit depth hold i h hn hi hm
  rw [h.exec_start]
  obtain ⟨l, f, hduck⟩ := s.counted.duckStart_eq src.toNat tag.toNat emit depth.toNat hold.toNat
  rw [hduck]
  generalize hz : { s.counted with ducks := l, flags := f } = z
  have hvoice : ∀ v, z.voice v = s.voice v := fun v => by rw [← hz]; rfl
  have hcue : ∀ w, z.cueOf w = s.cueOf w := fun w => by rw [← hz]; rfl
  have hcfg : z.cfg = s.cfg := by rw [← hz]; rfl
  have houtcomes : z.outcomes = s.outcomes := by rw [← hz]; rfl
  have hnz : NoRequests z := by
    rw [← hz]
    exact ⟨hn.lines, hn.remote, hn.passes⟩
  have hmode : z.groupMode g.toNat = .lastWins := by rw [State.groupMode_of_place hi.groupPlace, hcfg, hm]
  have hfade : z.chokeFade g.toNat = (s.cfg.groups.get i).chokeFade := by rw [State.chokeFade_of_place hi.groupPlace, hcfg]
  obtain ⟨hstops, hturns⟩ := hnz.chokeGroup hmode .lost
  refine ⟨_, rfl, (outcomes_eq_of_stops fun o => (hnz.chokeGroup hmode o).1).trans houtcomes, fun v => ?_⟩
  have hchokes : z.chokes g.toNat v = true ↔ _ := State.chokes_iff
  rw [hvoice, hcue] at hchokes
  refine ⟨fun hv => ?_, fun hv => ?_⟩
  · obtain ⟨x, A, hx⟩ := hturns v (hchokes.mpr hv)
    rw [← hvoice, ← hfade]
    exact hx.choked (hchokes.mpr hv)
  · rw [← hvoice]
    exact hstops.others v (hv ∘ hchokes.mp)

end Sys2Proof.Machine
end
section
/-! PROOF. What is queued while voices are stopped: no HELD and no RELEASE for a group that has no holding voice (R73, R85, R88). -/

namespace Sys2Proof.Machine

set_option Elab.async false

variable {s t : State} {v : Fin 8} {i j : Fin 15} {p : Frame → Bool} {f : Frame}

/-! ## Frames that no offer brings -/

theorem hasFrame_of_sublist (hq : t.queue.Sublist s.queue) (h : s.hasFrame p = false) : t.hasFrame p = false := by
  unfold State.hasFrame at h ⊢
  rw [List.any_eq_false] at h ⊢
  exact fun e he => h e (hq.subset he)

/-- An offer brings no frame but the one that is offered. -/
theorem place_brings_no (key : Nat) (hf : p f = false) (h : s.hasFrame p = false) : (s.place f key).1.hasFrame p = false := by
  obtain ⟨-, e⟩ | ⟨-, x, -, e⟩ | ⟨-, -, e⟩ := place_cases (s := s) f key <;> rw [e]
  · refine (hasFrame_placeEntry _ s p).trans ?_
    rw [h, Bool.or_false]
    exact hf
  · have hdropped : { s with queue := dropLastWaiting s.queue }.hasFrame p = false := hasFrame_of_sublist (dropLastWaiting_sublist _) h
    obtain ⟨vs, hvs⟩ := evicted_eq
      (s := { s with queue := placeEntry (newEntry f key) (dropLastWaiting s.queue) }.latch .txqDrop) x.frame
    refine (congrArg (fun t => t.hasFrame p) hvs).trans ?_
    refine (hasFrame_placeEntry (newEntry f key) { s with queue := dropLastWaiting s.queue } p).trans ?_
    rw [hdropped, Bool.or_false]
    exact hf
  · exact h

/-! ## A group that is not held (R85) -/

/-- The group at place i has no holding voice, and no HELD and no RELEASE for it is in the queue. -/
structure KeptOut (i : Fin 15) (s : State) : Prop where
  held : (s.groups.get i).holdingVoice = none
  queue : s.hasFrame (Frame.keepsGroup (i.val + 1)) = false

theorem KeptOut.frames (h : KeptOut i s) :
    s.hasFrame (Frame.isHeldOf (i.val + 1)) = false ∧ s.hasFrame (Frame.isReleaseOf (i.val + 1)) = false := by
  have hno := List.any_eq_false.mp h.queue
  refine ⟨List.any_eq_false.mpr fun e he hp => hno e he ?_, List.any_eq_false.mpr fun e he hp => hno e he ?_⟩
  · exact Bool.or_eq_true_iff.mpr (.inl hp)
  · exact Bool.or_eq_true_iff.mpr (.inr hp)

theorem KeptOut.congr (h : KeptOut i s) (groups : t.groups = s.groups := by rfl) (queue : t.queue.Sublist s.queue) : KeptOut i t :=
  ⟨groups ▸ h.held, hasFrame_of_sublist queue h.queue⟩

theorem KeptOut.of_same (h : KeptOut i s) (groups : t.groups = s.groups := by rfl) (queue : t.queue = s.queue := by rfl) : KeptOut i t :=
  h.congr groups (queue ▸ List.Sublist.refl _)

theorem KeptOut.place (h : KeptOut i s) (key : Nat) (hf : f.keepsGroup (i.val + 1) = false) : KeptOut i (s.place f key).1 := by
  obtain ⟨q, vs, fl, e⟩ := place_eq (s := s) f key
  have hgroups : (s.place f key).1.groups = s.groups := (congrArg State.groups e :)
  exact ⟨hgroups ▸ h.held, place_brings_no key hf h.queue⟩

theorem KeptOut.offer_end (h : KeptOut i s) (tag g : Byte) : KeptOut i (s.offer (.endFrame tag g)) := by
  unfold State.offer State.offerKey
  dsimp only
  split
  · exact h.congr rfl List.filter_sublist
  · exact h.place _ rfl

theorem KeptOut.queueRelease (h : KeptOut i s) (hne : j ≠ i) : KeptOut i (s.queueRelease (j.val + 1)) := by
  have hother : Frame.keepsGroup (i.val + 1) (.release (BitVec.ofNat 8 (j.val + 1))) = false := by
    refine beq_false_of_ne fun heq => hne ?_
    rw [BitVec.toNat_ofNat] at heq
    omega
  unfold State.queueRelease
  split
  · exact h.place _ hother
  · exact h

theorem KeptOut.setGroup (h : KeptOut i s) (j : Fin 15) : KeptOut i (s.setGroup j { s.groups.get j with holdingVoice := none }) := by
  refine ⟨?_, h.queue⟩
  rw [State.setGroup_groups, Table.get_set]
  split
  · rfl
  · exact h.held

/-- The RELEASE that a voice leaves is for a group that it held. -/
theorem KeptOut.dropHolding (h : KeptOut i s) (v : Fin 8) (tag : Nat) (j : Fin 15) : KeptOut i (s.dropHolding v tag j) := by
  unfold State.dropHolding
  dsimp only
  split
  next hj =>
    have hne : j ≠ i := fun e => by
      rw [e, h.held] at hj
      cases hj
    split
    · exact h.setGroup j
    · exact (h.setGroup j).queueRelease hne
  · exact h

theorem KeptOut.settleAnnounce (h : KeptOut i s) (a : Announce) (tag group : Nat) : KeptOut i (s.settleAnnounce a tag group) := by
  unfold State.settleAnnounce
  split
  · exact h
  · split
    · exact h
    · split
      · exact h.of_same
      · exact h.offer_end _ _
  · split
    · exact h.of_same
    · split
      · exact h.offer_end _ _
      · exact h

theorem KeptOut.freedLeft (h : KeptOut i s) (v : Fin 8) : KeptOut i (s.freedLeft v) := by
  obtain ⟨hgroups, hqueue, -⟩ := s.withFreed_same v
  exact inOrder_keeps (P := KeptOut i) (fun j t ht => ht.dropHolding v _ j) groupPlaces
    ((h.of_same hgroups hqueue).settleAnnounce _ _ _)

theorem KeptOut.claimEnded (h : KeptOut i s) (v : Fin 8) (o : RequestOutcome) : KeptOut i (s.claimEnded v o) := by
  obtain ⟨os, he, -⟩ := s.claimEnded_spec v o
  rw [he]
  exact h.congr rfl List.filter_sublist

theorem KeptOut.releaseVoice (h : KeptOut i s) (hn : NoRequests s) (v : Fin 8) (r : Rate) :
    KeptOut i (s.releaseVoice v r).settlePasses := by
  rcases hn.releaseVoice_cases v r with hc | ⟨-, hc⟩
  · exact h.of_same (congrArg State.groups hc.frame :) (congrArg State.queue hc.frame :)
  · rw [hc]
    exact h.freedLeft v

end Sys2Proof.Machine
end
section
/-! PROOF. A HELD completes (HeldNamesItsSenderHolder). -/

namespace Sys2Proof.Machine

set_option Elab.async false

variable {s t x y : State} {v u : Fin 8} {i : Fin 15} {n : Nat} {o : RequestOutcome} {A : Fin 8 → Prop} {held : Option (Fin 8 × Nat)}

/-! ## A cut (R57 to R59) -/

/-- A release by CUT, and the entry into FREE that it may come to. -/
theorem NoRequests.releaseVoice_cut (h : NoRequests s) (v : Fin 8) :
    (s.releaseVoice v .cut).settlePasses.voice v = (s.voice v).released .cut := by
  have hfreed := h.freeVoice_voice v
  have hsame : s.settlePasses.voice v = s.voice v := congrArg (fun t => State.voice t v) h.settlePasses
  have hmodel : (s.voice v).level ≠ 0 → ¬(Rate.cut.rank = 0 ∨ (s.voice v).level = 0) := fun hl => not_or.mpr ⟨nofun, hl⟩
  have hspec : (s.voice v).level ≠ 0 → ¬(Rate.cut = .fade 0 ∨ (s.voice v).level = 0) := fun hl => not_or.mpr ⟨nofun, hl⟩
  unfold State.releaseVoice Voice.released
  dsimp only
  cases (s.voice v).state with
  | free | claiming => exact hsame
  | priming => exact hfreed
  | sounding =>
    dsimp only
    by_cases hl : (s.voice v).level = 0
    · rw [if_pos hl, if_pos (.inr hl)]
      exact hfreed
    · rw [if_neg hl, if_neg (hspec hl)]
      exact h.runDown_joined_voice v _
  | releasing =>
    dsimp only
    by_cases hr : Rate.cut.rank < ((s.voice v).rate.getD .tail).rank
    · rw [if_pos hr, if_pos hr]
      by_cases hl : (s.voice v).level = 0
      · rw [if_pos (.inr hl), if_pos (.inr hl)]
        exact hfreed
      · rw [if_neg (hmodel hl), if_neg (hspec hl)]
        exact h.runDown_voice v _
    · rw [if_neg hr, if_neg hr]
      exact hsame

/-! ## The holding voice yields (R62) -/

/-- Voice v with its claimed request changed from PLAYED to LOST (R62). -/
def State.playedLost (s : State) (v : Fin 8) : State :=
  match (s.voice v).claimed with
  | .played => (s.setVoice v { s.voice v with claimed := .none }).recordOutcome (s.voice v).source .lost
  | .openClaim => s
  | .none => s

theorem State.yieldVoice_eq (s : State) (v : Fin 8) : s.yieldVoice v = (s.playedLost v).releaseVoice v .cut := rfl

/-- What voice w holds once it has yielded its claimed request. -/
def Voice.yielded (w : Voice) : Voice := { w with claimed := if w.claimed = Claimed.played then Claimed.none else w.claimed }

theorem State.playedLost_of_played (h : (s.voice v).claimed = .played) :
    s.playedLost v = (s.setVoice v (s.voice v).yielded).recordOutcome (s.voice v).source .lost := by
  unfold State.playedLost Voice.yielded
  rw [h]
  rfl

theorem State.playedLost_of_not_played (h : (s.voice v).claimed ≠ .played) : s.playedLost v = s := by
  unfold State.playedLost
  split
  next hp => exact absurd hp h
  · rfl
  · rfl

/-- A recorded outcome is the outcome of its source's place, and nothing else changes. -/
theorem State.recordOutcome_spec (s : State) (src : Source) (o : RequestOutcome) :
    ∃ os, s.recordOutcome src o = { s with outcomes := os } ∧ (∀ p, os.get p = s.outcomes.get p ∨ os.get p = some o) ∧
      ∀ p, src.place = some p → os.get p = some o := by
  unfold State.recordOutcome
  cases hp : src.place with
  | none => exact ⟨s.outcomes, rfl, fun _ => .inl rfl, nofun⟩
  | some p =>
    refine ⟨_, rfl, fun q => ?_, fun q hq => ?_⟩
    · rw [Table.get_set]
      split
      · exact .inr rfl
      · exact .inl rfl
    · cases hq
      exact Table.get_set_self _ _ _

theorem State.playedLost_spec (s : State) (v : Fin 8) :
    ∃ os, s.playedLost v = { s.setVoice v (s.voice v).yielded with outcomes := os } ∧
      (∀ p, os.get p = s.outcomes.get p ∨ os.get p = some .lost) ∧
      ((s.voice v).claimed = .played → ∀ p, (s.voice v).source.place = some p → os.get p = some .lost) := by
  by_cases hp : (s.voice v).claimed = .played
  · obtain ⟨os, he, hos, hlost⟩ := (s.setVoice v (s.voice v).yielded).recordOutcome_spec (s.voice v).source .lost
    exact ⟨os, (State.playedLost_of_played hp).trans he, hos, fun _ => hlost⟩
  · have hsame : (s.voice v).yielded = s.voice v := by
      unfold Voice.yielded
      rw [if_neg hp]
    refine ⟨s.outcomes, ?_, fun _ => .inl rfl, fun h => absurd h hp⟩
    rw [State.playedLost_of_not_played hp, hsame, State.setVoice_self]

theorem State.playedLost_voice (s : State) (v u : Fin 8) :
    (s.playedLost v).voice u = if v = u then (s.voice v).yielded else s.voice u := by
  obtain ⟨os, he, -⟩ := s.playedLost_spec v
  rw [he]
  exact s.voice_setVoice u v _

theorem State.playedLost_stops (s : State) (v : Fin 8) : Stops .lost (· = v) s (s.playedLost v) := by
  have hvoice := s.playedLost_voice v
  obtain ⟨os, he, hos, -⟩ := s.playedLost_spec v
  have hyielded : ∀ u, ((s.playedLost v).voice u).state = (s.voice u).state ∧ ((s.playedLost v).voice u).cue = (s.voice u).cue ∧
      ((s.playedLost v).voice u).announce = (s.voice u).announce := fun u => by
    rw [hvoice]
    split
    next h =>
      subst h
      exact ⟨rfl, rfl, rfl⟩
    · exact ⟨rfl, rfl, rfl⟩
  have hother : ∀ u, u ≠ v → (s.playedLost v).voice u = s.voice u := fun u hu => (hvoice u).trans (if_neg hu.symm)
  generalize s.playedLost v = t at he hyielded hother
  have hqueue : t.queue = s.queue := by rw [he]; rfl
  have hgroups : t.groups = s.groups := by rw [he]; rfl
  have hcfg : t.cfg = s.cfg := by rw [he]; rfl
  exact {
    cfg := hcfg
    mode := by rw [he]; rfl
    cues := by rw [he]; rfl
    requests := fun m => by rw [he]; rfl
    remote := by rw [he]; rfl
    passes := by rw [he]; rfl
    outcome := fun p => by rw [he]; exact hos p
    others := fun u hu => by rw [hother u hu]; exact Untouched.refl _
    free := fun u g hu hf => (hother u hu).trans hf
    claiming := fun u hu => ⟨(hyielded u).1 ▸ hu, (hyielded u).2.1⟩
    claims := fun g _ => by rw [hqueue]
    flying := fun g hg => by
      unfold State.hasFlying at hg ⊢
      rw [hqueue]
      exact hg
    releases := by
      refine .of_queue (by rw [he]; rfl) (hqueue ▸ List.Sublist.refl _) (fun g => by unfold State.hasFrame; rw [hqueue])
        (fun u hu => (hyielded u).2.2.trans hu) fun j hj => ?_
      unfold State.holdsPlace at hj ⊢
      rwa [hgroups, hcfg] at hj
    view := fun i => .inl (by rw [hgroups]) }

theorem State.playedLost_state (s : State) (v : Fin 8) : ((s.playedLost v).voice v).state = (s.voice v).state := by
  rw [s.playedLost_voice, if_pos rfl]
  rfl

theorem NoRequests.yieldVoice_stops (h : NoRequests s) (v : Fin 8) : Stops .lost (· = v) s (s.yieldVoice v).settlePasses := by
  have hlost := s.playedLost_stops v
  rw [State.yieldVoice_eq]
  by_cases hc : (s.voice v).state = .claiming
  · rw [State.releaseVoice_of_claiming ((s.playedLost_state v).trans hc), (h.of_stops hlost).settlePasses]
    exact hlost
  · exact hlost.trans ((h.of_stops hlost).releaseVoice_stops (by rw [s.playedLost_state]; exact hc) _)

/-- A voice that yields is cut, and its request PLAYED has become LOST. -/
theorem NoRequests.yieldVoice_voice (h : NoRequests s) (v : Fin 8) (hc : (s.voice v).state ≠ .claiming) :
    (s.yieldVoice v).settlePasses.voice v = (s.voice v).yielded.released .cut ∧
      ((s.voice v).claimed = .played → ∀ p, (s.voice v).source.place = some p →
        (s.yieldVoice v).settlePasses.outcomes.get p = some .lost) := by
  have hn := h.of_stops (s.playedLost_stops v)
  rw [State.yieldVoice_eq]
  refine ⟨?_, fun hp p hplace => ?_⟩
  · rw [hn.releaseVoice_cut, s.playedLost_voice, if_pos rfl]
  · obtain ⟨os, he, -, hlost⟩ := s.playedLost_spec v
    have hbefore : (s.playedLost v).outcomes.get p = some .lost := by
      rw [he]
      exact hlost hp p hplace
    have hcut : Stops .lost (· = v) (s.playedLost v) ((s.playedLost v).releaseVoice v .cut).settlePasses :=
      hn.releaseVoice_stops (by rw [s.playedLost_state]; exact hc) _
    exact (hcut.outcome p).elim (fun e => e.trans hbefore) id

theorem KeptOut.yieldVoice (h : KeptOut i s) (hn : NoRequests s) (v : Fin 8) : KeptOut i (s.yieldVoice v).settlePasses := by
  have hlost := s.playedLost_stops v
  obtain ⟨os, he, -⟩ := s.playedLost_spec v
  have hkept : KeptOut i (s.playedLost v) := by
    rw [he]
    exact h.of_same
  exact hkept.releaseVoice (hn.of_stops hlost) v .cut

/-! ## The former holding voice (R86) -/

/-- Voice v is the voice under the tag of a former holding voice, and not FREE. -/
def State.yields (s : State) (held : Option (Fin 8 × Nat)) (v : Fin 8) : Prop := held = some (v, s.tag v) ∧ (s.voice v).state ≠ .free

theorem State.yieldHolding_of_yields (h : s.yields held v) : s.yieldHolding held = (s.yieldVoice v).settlePasses := by
  unfold State.yieldHolding
  rw [h.1]
  exact if_pos ⟨rfl, h.2⟩

theorem State.yieldHolding_of_none (h : ∀ v, ¬s.yields held v) : s.yieldHolding held = s := by
  unfold State.yieldHolding
  split
  next v tag =>
    refine if_neg fun hv => h v ⟨?_, hv.2⟩
    rw [hv.1]
  · rfl

/-- At most the one voice that yields is acted on. -/
theorem NoRequests.yieldHolding_stops (h : NoRequests s) (held : Option (Fin 8 × Nat)) :
    Stops .lost (s.yields held) s (s.yieldHolding held) := by
  by_cases hv : ∃ v, s.yields held v
  · obtain ⟨v, hv⟩ := hv
    rw [State.yieldHolding_of_yields hv]
    exact (h.yieldVoice_stops v).mono fun u hu => hu ▸ hv
  · rw [State.yieldHolding_of_none fun v hy => hv ⟨v, hy⟩]
    exact Stops.refl s

theorem KeptOut.yieldHolding (h : KeptOut i s) (hn : NoRequests s) (held : Option (Fin 8 × Nat)) : KeptOut i (s.yieldHolding held) := by
  by_cases hv : ∃ v, s.yields held v
  · obtain ⟨v, hv⟩ := hv
    rw [State.yieldHolding_of_yields hv]
    exact h.yieldVoice hn v
  · rw [State.yieldHolding_of_none fun v hy => hv ⟨v, hy⟩]
    exact h

/-! ## The station's queued claim (R86) -/

theorem NoRequests.withdrawClaim_cases (h : NoRequests s) (n : Nat) (o : RequestOutcome) :
    s.withdrawClaim n o = s ∨ ∃ v, (s.voice v).state = .claiming ∧ s.withdrawClaim n o = (s.claimEnded v o).freedLeft v := by
  cases hc : s.claimant n with
  | none =>
    left
    unfold State.withdrawClaim
    rw [hc]
  | some v =>
    by_cases hq : s.claimQueued v = true
    · exact .inr ⟨v, (State.claimQueued_iff.mp hq).1, h.withdrawClaim_of_claimant hc hq⟩
    · left
      unfold State.withdrawClaim
      rw [hc]
      exact if_neg hq

theorem NoRequests.withdrawClaim_stops (h : NoRequests s) (n : Nat) (o : RequestOutcome) :
    Stops o (fun u => (s.voice u).state = .claiming) s (s.withdrawClaim n o) := by
  rcases h.withdrawClaim_cases n o with he | ⟨v, hc, he⟩ <;> rw [he]
  · exact Stops.refl s
  · exact (withdraw_stops hc).mono fun u hu => hu ▸ hc

theorem KeptOut.withdrawClaim (h : KeptOut i s) (hn : NoRequests s) (n : Nat) (o : RequestOutcome) : KeptOut i (s.withdrawClaim n o) := by
  rcases hn.withdrawClaim_cases n o with he | ⟨v, -, he⟩ <;> rw [he]
  · exact h
  · exact (h.claimEnded v o).freedLeft v

/-! ## The HELD (R86, R87) -/

theorem Hears.exec_held {src : BitVec 5} (h : Hears s src) (g : Byte) :
    exec (.held src g) s = .next (s.counted.foreignHeld src.toNat g.toNat) :=
  congrArg Host.Outcome.next (h.completes (.held g)).completeFrame

theorem State.ownHeld_of_firstWins (hi : groupPlace n = some i) (hm : (s.cfg.groups.get i).mode = .firstWins) :
    s.ownHeld n = s.setGroup i { s.groups.get i with holder := some s.cfg.number, lastWinner := s.cfg.number } := by
  unfold State.ownHeld
  rw [hi]
  exact if_pos hm

/-- The first three steps of R86: the view names the sender, and this station's HELD and RELEASE for the group are taken out. -/
def State.heldBy (s : State) (src n : Nat) (i : Fin 15) : State :=
  (s.setGroup i { s.groups.get i with holder := some src, lastWinner := src, holdingVoice := none, holdingLine := none }).takeOut
    (Frame.keepsGroup n)

theorem State.foreignHeld_eq (src : Nat) (hi : groupPlace n = some i) (hm : (s.cfg.groups.get i).mode = .firstWins) :
    s.foreignHeld src n =
      ((s.heldBy src n i).withdrawClaim n .lost).yieldHolding
        (if (s.groups.get i).holder = some s.cfg.number then (s.groups.get i).holdingVoice else none) := by
  unfold State.foreignHeld
  rw [hi]
  dsimp only
  rw [if_pos hm]
  split <;> rfl

theorem isClaim_of_keepsGroup {f : Frame} (h : f.keepsGroup n = true) : f.isClaim = false := by
  cases f <;> first | rfl | cases h

theorem State.heldBy_hasWaiting (s : State) (src n : Nat) (i : Fin 15) (g : Nat) :
    (s.heldBy src n i).hasWaiting (Frame.isClaimOf g) = s.hasWaiting (Frame.isClaimOf g) :=
  State.hasWaiting_of_claims (claimsIn_takeOut fun _ => isClaim_of_keepsGroup) g

theorem State.heldBy_keptOut (src : Nat) (hi : groupPlace n = some i) (hno : ∀ p, s.hasFlying p = false) :
    KeptOut i (s.heldBy src n i) := by
  have hn : i.val + 1 = n := groupPlace_eq_some.mp hi
  subst hn
  refine ⟨congrArg GroupView.holdingVoice (Table.get_set_self _ _ _), List.any_eq_false.mpr fun e he hp => ?_⟩
  have hqueue : (s.heldBy src (i.val + 1) i).queue = s.queue.filter fun e => !Frame.keepsGroup (i.val + 1) e.frame :=
    takeOut_of_not_flying (hno _)
  rw [hqueue] at he
  have hnot := (List.mem_filter.mp he).2
  rw [hp] at hnot
  cases hnot

theorem NoRequests.heldBy (h : NoRequests s) (src n : Nat) (i : Fin 15) : NoRequests (s.heldBy src n i) := ⟨h.lines, h.remote, h.passes⟩

theorem Untouched.tag (h : Untouched (s.voice v) (t.voice v)) : t.tag v = s.tag v := by
  unfold State.tag
  rw [h.generation]

theorem Untouched.yielded {w x : Voice} (h : Untouched w x) : Untouched w.yielded x.yielded := by
  refine ⟨?_, h.announce⟩
  rw [h.rest]
  rfl

/-- A voice that is CLAIMING no more, where another station's HELD has had its claim withdrawn, is acted on where it yields. -/
theorem NoRequests.yieldHolding_voice (h : NoRequests s) (hbefore : Untouched (x.voice v) (s.voice v)) (hyields : s.yields held v)
    (hc : (x.voice v).state ≠ .claiming) :
    Untouched ((x.voice v).yielded.released .cut) ((s.yieldHolding held).voice v) ∧
      ((x.voice v).claimed = .played → ∀ p, (x.voice v).source.place = some p → (s.yieldHolding held).outcomes.get p = some .lost) := by
  obtain ⟨hvoice, houtcome⟩ := h.yieldVoice_voice v (by rw [hbefore.state]; exact hc)
  have hclaimed : (s.voice v).claimed = (x.voice v).claimed := by rw [hbefore.rest]
  have hsource : (s.voice v).source = (x.voice v).source := by rw [hbefore.rest]
  rw [hclaimed, hsource] at houtcome
  rw [State.yieldHolding_of_yields hyields]
  refine ⟨?_, houtcome⟩
  rw [hvoice]
  exact hbefore.yielded.released _

/-- Settles O46: the steps of R86 in their order: the view and the queue (`State.heldBy`), the station's claim
(`NoRequests.withdrawClaim_stops`), and the former holding voice (`NoRequests.yieldHolding_stops`). -/
theorem heldNamesItsSenderHolder : Obligations.HeldNamesItsSenderHolder := by
  intro s g i hi hm
  refine ⟨fun heard e hfly he => ?_, fun src h hw hn => ?_⟩
  · have hexec : exec (.ownHeldComplete heard) s = .next ((s.sent heard).ownHeld g.toNat) := by
      refine congrArg Host.Outcome.next ((State.completeOwn_of_flying hfly (by rw [he]; rfl)).trans ?_)
      rw [he]
      rfl
    have hsent : (s.sent heard).cfg = s.cfg ∧ (s.sent heard).groups = s.groups := by cases heard <;> exact ⟨rfl, rfl⟩
    rw [hexec, State.ownHeld_of_firstWins hi.groupPlace (by rw [hsent.1]; exact hm), hsent.1, hsent.2]
  · intro was yields
    have hfly : ∀ p, s.counted.hasFlying p = false := hasFlying_of_waits ((h.completes (.held g)).waits hw)
    have hnbase : NoRequests s.counted := ⟨hn.lines, hn.remote, hn.passes⟩
    have hexec : exec (.held src g) s =
        .next (((s.counted.heldBy src.toNat g.toNat i).withdrawClaim g.toNat .lost).yieldHolding
          (if was.holder = some s.cfg.number then was.holdingVoice else none)) :=
      (h.exec_held g).trans (congrArg _ (State.foreignHeld_eq (s := s.counted) src.toNat hi.groupPlace hm))
    have hview : (s.counted.heldBy src.toNat g.toNat i).groups.get i =
        { was with holder := some src.toNat, lastWinner := src.toNat, holdingVoice := none, holdingLine := none } :=
      Table.get_set_self _ _ _
    have hnz := hnbase.heldBy src.toNat g.toNat i
    have hkept := State.heldBy_keptOut src.toNat hi.groupPlace hfly
    have hwaiting := s.counted.heldBy_hasWaiting src.toNat g.toNat i g.toNat
    have hflying : (s.counted.heldBy src.toNat g.toNat i).hasFlying (Frame.isClaimOf g.toNat) = false := hasFlying_takeOut (hfly _)
    have hvoices : ∀ u, (s.counted.heldBy src.toNat g.toNat i).voice u = s.voice u := fun _ => rfl
    have hcues : (s.counted.heldBy src.toNat g.toNat i).cues = s.cues := rfl
    have hheld : ∀ v, (if was.holder = some s.cfg.number then was.holdingVoice else none) = some (v, s.tag v) ↔ yields v := fun v => by
      by_cases hown : was.holder = some s.cfg.number
      · rw [if_pos hown]
        exact (and_iff_right hown).symm
      · rw [if_neg hown]
        exact ⟨nofun, fun hy => absurd hy.1 hown⟩
    generalize s.counted.heldBy src.toNat g.toNat i = z at hexec hview hnz hkept hwaiting hflying hvoices hcues
    generalize (if was.holder = some s.cfg.number then was.holdingVoice else none) = held at hexec hheld
    have hclaim := hnz.withdrawClaim_stops g.toNat .lost
    have hny := hnz.of_stops hclaim
    have hkepty := hkept.withdrawClaim hnz g.toNat .lost
    have hbefore : ∀ v, (s.voice v).state ≠ .claiming → Untouched (s.voice v) ((z.withdrawClaim g.toNat .lost).voice v) :=
      fun v hv => by
        rw [← hvoices] at hv ⊢
        exact hclaim.others v hv
    have hcut := hny.yieldHolding_stops held
    have hkeptt := hkepty.yieldHolding hny held
    have hframes := hkeptt.frames
    rw [← hi] at hframes
    refine ⟨_, hexec, ?_, hframes.1, hframes.2, fun v => ⟨fun hy hfree hc => ?_, fun hy hc => ?_, fun only hwait hy => ?_⟩⟩
    · rcases hcut.view i with ht | ht <;> rw [ht] <;> rcases hclaim.view i with hc | hc <;> rw [hc, hview]
    · have hvoice := hbefore v hc
      have hyields : (z.withdrawClaim g.toNat .lost).yields held v :=
        ⟨by rw [hvoice.tag]; exact (hheld v).mpr hy, by rw [hvoice.state]; exact hfree⟩
      exact hny.yieldHolding_voice hvoice hyields hc
    · have hvoice := hbefore v hc
      refine hvoice.trans (hcut.others v fun hyields => hy ((hheld v).mp ?_))
      rw [← hvoice.tag]
      exact hyields.1
    · have honly : OnlyClaimant z g.toNat v := only.congr hvoices hcues
      have hout : z.withdrawClaim g.toNat .lost = (z.claimEnded v .lost).freedLeft v :=
        hnz.withdrawClaim_of_claimant honly.claimant (honly.claimQueued (hwaiting.trans hwait))
      have hfreed : ((z.withdrawClaim g.toNat .lost).voice v).state = .free := by
        rw [hout, (State.freedLeft_voice _ _ _).1 rfl]
        rfl
      have hturn : StopTurn .lost (· ≠ v) v z z (z.withdrawClaim g.toNat .lost)
          ((z.withdrawClaim g.toNat .lost).yieldHolding held) :=
        { requests := hnz
          before := Stops.refl z
          turn := by rw [hout]; exact withdraw_stops honly.state
          after := hcut.mono fun u hu e => hu.2 (e ▸ hfreed)
          own := not_not_intro rfl }
      have hleft := hturn.withdrawn hout honly hflying
      rw [hvoices] at hleft
      exact hleft

end Sys2Proof.Machine
end
section
/-! PROOF. A voice whose V reaches 0 in a fade or cut is freed (FadedOutVoiceIsFreed). -/

namespace Sys2Proof.Machine

set_option Elab.async false

variable {s z t x : State} {v u : Fin 8}

/-! ## The instant up to the voices that run out (R13, R94 to R101) -/

/-- A sample instant where nothing is due, out of LOADING: the voices have ticked before those that have run out are freed. -/
theorem State.sampleInstant_freeRunOut (hm : s.mode ≠ .loading) (hs : s.settled) :
    ∃ vs q x n g k,
      s.sampleInstant =
        State.freeRunOut
          { s with
            tmb := s.tmb.countSample
            voices := vs
            pgm := s.mixed .pgm
            floor := s.mixed .floor
            queue := q
            tx := x
            choices := n
            flags := g
            link := k } ∧
      QueueOverFlag s q ∧ ∀ u, SameButFetch (s.ticked u) (vs.get u) := by
  obtain ⟨q, x, n, hq, hflag⟩ := State.flagMayEnd_eq (s := { s with tmb := s.tmb.countSample })
  obtain ⟨g, hg, -⟩ := State.mixInstant_eq (s := { s with tmb := s.tmb.countSample, queue := q, tx := x, choices := n })
  have hget := State.get_tickVoices (s := { s with tmb := s.tmb.countSample, queue := q, tx := x, choices := n })
  obtain ⟨vs, k, ha, hvs⟩ := State.arbitrate_eq
    (s := { s with
      tmb := s.tmb.countSample, queue := q, tx := x, choices := n, flags := g, pgm := s.mixed .pgm, floor := s.mixed .floor
      voices := { s with tmb := s.tmb.countSample, queue := q, tx := x, choices := n }.tickVoices })
  refine ⟨vs, q, x, n, g, k, ?_, hflag, fun u => ?_⟩
  · unfold State.sampleInstant
    rw [hs]
    dsimp only
    rw [if_neg (by simpa [State.isLoading] using hm), hq, hg]
    exact congrArg State.freeRunOut ha
  · obtain ⟨f, -, hf⟩ := hvs u
    unfold State.voice at hf
    rw [hget] at hf
    rw [hf]
    exact rfl

/-- What a sample instant keeps of a voice, whatever has been granted to it since. -/
theorem SameButFetch.ticked {w : Voice} (h : SameButFetch (s.ticked u) w) :
    w.state = (s.voice u).state ∧ w.rate = (s.voice u).rate ∧ w.generation = (s.voice u).generation ∧ w.cue = (s.voice u).cue ∧
      w.announce = (s.voice u).announce ∧ w.level = (s.ticked u).level := by
  have hticked : s.ticked u = _ := (s.voice u).tick_frame (s.cueOf (s.voice u)) s.cfg (duckTarget s u)
  have hlevel : w.level = (s.ticked u).level := by rw [h]
  refine ⟨?_, ?_, ?_, ?_, ?_, hlevel⟩ <;> rw [h, hticked]

/-! ## The voices that have run out (R97) -/

theorem State.runOut_iff : s.runOut v = true ↔ (s.voice v).state = .releasing ∧ (s.voice v).rate ≠ some .tail ∧ (s.voice v).level = 0 := by
  unfold State.runOut
  rw [Bool.and_eq_true, Bool.and_eq_true, decide_eq_true_iff, decide_eq_true_iff, decide_eq_true_iff, and_assoc]

/-- The entry into FREE of a voice that still has run out when its turn comes. -/
def State.freeIfOut (v : Fin 8) (s : State) : State := (if s.runOut v then s.freeVoice v else s).settlePasses

theorem State.freeRunOut_eq (s : State) : s.freeRunOut = visit State.freeIfOut (slots.filter fun v => s.runOut v) s := rfl

theorem NoRequests.freeIfOut (h : NoRequests s) (v : Fin 8) : State.freeIfOut v s = if s.runOut v then s.freedLeft v else s := by
  unfold State.freeIfOut
  split
  · exact h.freeVoice v
  · exact h.settlePasses

/-- A voice that enters FREE leaves the releasing list (R61), and none joins. -/
theorem State.freedLeft_releasing (s : State) (v : Fin 8) : (s.freedLeft v).releasing = s.releasing.filter fun x => decide (x ≠ v) := by
  rw [(s.freedLeft_announces v).frame]
  rfl

theorem Stops.runOut (h : Stops .lost (· ≠ v) s t) (hv : s.runOut v = true) : t.runOut v = true := by
  have hvoice := (h.others v (not_not_intro rfl)).rest
  rw [State.runOut_iff] at hv ⊢
  rw [hvoice]
  exact hv

/-- What the entry into FREE of the others leaves of voice v. -/
def SparesVoice (v : Fin 8) (s t : State) : Prop := Stops .lost (· ≠ v) s t ∧ ∀ u ∈ t.releasing, u ∈ s.releasing

theorem SparesVoice.refl (v : Fin 8) (s : State) : SparesVoice v s s := ⟨Stops.refl s, fun _ => id⟩

theorem SparesVoice.trans (h : SparesVoice v s t) (k : SparesVoice v t x) : SparesVoice v s x :=
  ⟨h.1.trans k.1, fun u => h.2 u ∘ k.2 u⟩

theorem NoRequests.freeIfOut_spares (h : NoRequests s) (hu : u ≠ v) : SparesVoice v s (State.freeIfOut u s) := by
  rw [h.freeIfOut u]
  split
  next hout =>
    have hplays : (s.voice u).state ≠ .claiming := by
      rw [(State.runOut_iff.mp hout).1]
      exact nofun
    refine ⟨(freedLeft_stops hplays).mono fun w hw => hw ▸ hu, fun w hw => ?_⟩
    rw [State.freedLeft_releasing] at hw
    exact List.mem_of_mem_filter hw
  · exact SparesVoice.refl v s

/-- Among the voices that run out each enters FREE in its turn. -/
theorem NoRequests.freeRunOut (h : NoRequests s) (hv : s.runOut v = true) :
    s.freeRunOut.voice v = Voice.freed (s.voice v).generation ∧ v ∉ s.freeRunOut.releasing := by
  have hturn : ∀ y, NoRequests y → y.runOut v = true → State.freeIfOut v y = y.freedLeft v := fun y hy hout => by
    rw [hy.freeIfOut v, if_pos hout]
  have hfree : ∀ y, NoRequests y → NoRequests (State.freeIfOut v y) := fun y hy => by
    by_cases hout : y.runOut v = true
    · rw [hturn y hy hout]
      exact hy.of_stops (o := .lost) (freedLeft_stops (by rw [(State.runOut_iff.mp hout).1]; exact nofun))
    · rw [hy.freeIfOut v, if_neg hout]
      exact hy
  obtain ⟨y, hy, hbefore, hafter⟩ := visitFrom_turn (f := State.freeIfOut) (I := NoRequests) (R := SparesVoice v) (SparesVoice.refl v)
    SparesVoice.trans (fun _ _ hy => ⟨⟨hy.lines, hy.remote, hy.passes⟩, Stops.of_same, fun _ => id⟩) _ _ (Nat.le_refl _)
    (slots_filter_nodup fun v => s.runOut v) (List.mem_filter.mpr ⟨mem_slots v, hv⟩) hfree
    (fun a _ ha y hy => ⟨hy.of_stops (hy.freeIfOut_spares ha).1, hy.freeIfOut_spares ha⟩) h
  have hout := hbefore.1.runOut hv
  have hfreed := (y.freedLeft_voice v v).1 rfl
  rw [(hbefore.1.others v (not_not_intro rfl)).generation] at hfreed
  rw [hturn y hy hout] at hafter
  rw [State.freeRunOut_eq]
  refine ⟨hafter.1.free v _ (not_not_intro rfl) hfreed, fun hmem => ?_⟩
  have hleft := hafter.2 v hmem
  rw [State.freedLeft_releasing] at hleft
  exact of_decide_eq_true (List.mem_filter.mp hleft).2 rfl

/-- A voice that alone runs out enters FREE, and nothing more is done. -/
theorem NoRequests.freeRunOut_alone (h : NoRequests s) (hv : s.runOut v = true) (hu : ∀ u, s.runOut u = true → u = v) :
    s.freeRunOut = s.freedLeft v := by
  have hone : s.freeRunOut = State.freeIfOut v s := by
    rw [State.freeRunOut_eq, filter_slots_eq_singleton hv hu]
    rfl
  rw [hone, h.freeIfOut v, if_pos hv]

/-- What a freed voice leaves of its groups and the queue is about its tag, its group and its announce state only. -/
theorem LeavesGroupsAndQueue.congr (h : LeavesGroupsAndQueue z t v) (hgeneration : (z.voice v).generation = (s.voice v).generation)
    (hgroup : (z.cueOf (z.voice v)).group = (s.cueOf (s.voice v)).group) (hannounce : (z.voice v).announce = (s.voice v).announce)
    (groups : z.groups = s.groups) (queue : z.queue = s.queue) (owedEnd : z.owedEnd = s.owedEnd) (mode : z.mode = s.mode)
    (cfg : z.cfg = s.cfg) : LeavesGroupsAndQueue s t v := by
  have htag : z.tag v = s.tag v := by
    unfold State.tag
    rw [hgeneration]
  unfold LeavesGroupsAndQueue State.hasRoom State.hasFrame State.hasFlying State.hasWaiting at h ⊢
  rw [htag, hgroup, hannounce, groups, queue, owedEnd, mode, cfg] at h
  exact h

/-- Settles O15: the voices tick (`State.sampleInstant_freeRunOut`), and each that has run out is freed in its turn
(`NoRequests.freeRunOut`). -/
theorem fadedOutVoiceIsFreed : Obligations.FadedOutVoiceIsFreed := by
  intro s v hm hsamples hblocks hs hn after hend hstate hrate hlevel
  have hdue : ¬(s.tmb.blockDue || s.tmb.unitDue) = true := by
    rw [Bool.or_eq_true, Timebase.blockDue_iff, Timebase.unitDue_iff]
    omega
  obtain ⟨vs, q, x, n, g, k, he, hq, hvs⟩ := State.sampleInstant_freeRunOut hm hs
  generalize hz : ({ s with
    tmb := s.tmb.countSample, voices := vs, pgm := s.mixed .pgm, floor := s.mixed .floor, queue := q, tx := x, choices := n, flags := g
    link := k } : State) = z at he
  have hvoice : ∀ u, SameButFetch (s.ticked u) (z.voice u) := fun u => by rw [← hz]; exact hvs u
  obtain ⟨hzstate, hzrate, hzgeneration, hzcue, hzannounce, hzlevel⟩ := (hvoice v).ticked
  have hnz : NoRequests z := by
    rw [← hz]
    exact ⟨hn.lines, hn.remote, hn.passes⟩
  have hout : z.runOut v = true := State.runOut_iff.mpr ⟨hzstate.trans hstate, by rw [hzrate]; exact hrate, hzlevel.trans hlevel⟩
  obtain ⟨hfreed, hreleasing⟩ := hnz.freeRunOut hout
  rw [hzgeneration] at hfreed
  refine ⟨z.freeRunOut, congrArg Host.Outcome.next ((if_neg hdue).trans he), hfreed, hreleasing, fun hothers => ⟨q, hq, ?_⟩⟩
  have halone : ∀ u, z.runOut u = true → u = v := fun u hu => by
    obtain ⟨hustate, hurate, hulevel⟩ := State.runOut_iff.mp hu
    obtain ⟨hstate', hrate', -, -, -, hlevel'⟩ := (hvoice u).ticked
    by_contra hne
    rcases hothers u hne (hstate'.symm.trans hustate) with htail | hlevel
    · exact hurate (hrate'.trans htail)
    · exact hlevel (hlevel'.symm.trans hulevel)
  rw [hnz.freeRunOut_alone hout halone]
  have hleaves := State.freedLeft_leaves (s := z) (v := v) (by rw [hzstate, hstate]; exact nofun)
  refine hleaves.congr hzgeneration ?_ hzannounce ?_ ?_ ?_ ?_ ?_
  · exact congrArg Cue.group (cueOf_congr (by rw [← hz]) hzcue)
  all_goals rw [← hz]

end Sys2Proof.Machine
end
section
/-! PROOF. A station in SILENT with an empty queue comes to owe no END, whatever its voices and its requests do (R66, R69, R169). -/

namespace Sys2Proof.Machine

set_option Elab.async false

variable {s t : State}

/-- The station is in SILENT, its queue is empty and it owes no END. -/
structure Hushed (s : State) : Prop where
  mode : s.mode = .silent
  queue : s.queue = []
  owedEnd : s.owedEnd = none

/-- A change of nothing that `Hushed` speaks of. -/
theorem Hushed.congr (h : Hushed s) (mode : t.mode = s.mode := by rfl) (queue : t.queue = s.queue := by rfl)
    (owedEnd : t.owedEnd = s.owedEnd := by rfl) : Hushed t :=
  ⟨mode.trans h.mode, queue.trans h.queue, owedEnd.trans h.owedEnd⟩

theorem Hushed.not_run (h : Hushed s) : s.isRun = false := by
  unfold State.isRun
  rw [h.mode]
  rfl

/-! ## Nothing is queued -/

theorem Hushed.settleAnnounce_eq (h : Hushed s) (a : Announce) (tag group : Nat) : s.settleAnnounce a tag group = s := by
  have hfly : s.hasFlying (Frame.isStartOf tag) = false := by
    unfold State.hasFlying
    rw [h.queue]
    rfl
  have hwait : s.hasWaiting (Frame.isStartOf tag) = false := by
    unfold State.hasWaiting
    rw [h.queue]
    rfl
  unfold State.settleAnnounce
  rw [h.not_run, hfly, hwait]
  cases a <;> rfl

theorem Hushed.queueRelease_eq (h : Hushed s) (g : Nat) : s.queueRelease g = s := by
  unfold State.queueRelease
  rw [h.not_run]
  rfl

theorem Hushed.decideAnnounce_eq (h : Hushed s) (v : Fin 8) : s.decideAnnounce v = s := by
  unfold State.decideAnnounce
  dsimp only
  rw [h.not_run]
  rfl

theorem Hushed.queueClaim_eq (h : Hushed s) (v : Fin 8) (g c : Nat) : s.queueClaim v g c = s := by
  unfold State.queueClaim
  rw [h.not_run]
  rfl

/-! ## Voices -/

theorem Hushed.recordOutcome (h : Hushed s) (src : Source) (o : RequestOutcome) : Hushed (s.recordOutcome src o) := by
  obtain ⟨os, he, -⟩ := s.recordOutcome_spec src o
  rw [he]
  exact h.congr

theorem Hushed.recordPlayed (h : Hushed s) (src : Source) : Hushed (s.recordPlayed src) := by
  unfold State.recordPlayed
  split
  · exact h.congr
  · exact h

theorem Hushed.arbitrate (h : Hushed s) : Hushed s.arbitrate := by
  obtain ⟨vs, k, he, -⟩ := s.arbitrate_eq
  rw [he]
  exact h.congr

theorem Hushed.beginTail (h : Hushed s) (v : Fin 8) : Hushed (s.beginTail v) := by
  obtain ⟨vs, k, he⟩ := s.beginTail_frame v
  rw [he]
  exact h.congr

theorem Hushed.dropHolding (h : Hushed s) (v : Fin 8) (tag : Nat) (i : Fin 15) : Hushed (s.dropHolding v tag i) := by
  have hset : Hushed (s.setGroup i { s.groups.get i with holdingVoice := none }) := h.congr
  unfold State.dropHolding
  dsimp only
  split
  · rw [hset.queueRelease_eq]
    split <;> exact hset
  · exact h

theorem Hushed.withFreed (h : Hushed s) (v : Fin 8) : Hushed (s.withFreed v) := by
  unfold State.withFreed State.clearOwedFor
  split <;> exact h.congr

theorem Hushed.freedLeft (h : Hushed s) (v : Fin 8) : Hushed (s.freedLeft v) := by
  refine inOrder_keeps (P := Hushed) (fun i t ht => ht.dropHolding v _ i) groupPlaces ?_
  unfold State.freedSettled
  rw [(h.withFreed v).settleAnnounce_eq]
  exact h.withFreed v

theorem Hushed.freeVoice (h : Hushed s) (v : Fin 8) : Hushed (s.freeVoice v) := by
  have hleft := h.freedLeft v
  rw [State.freeVoice_eq]
  generalize s.freedLeft v = t at hleft ⊢
  exact hleft.congr

theorem Hushed.withdraw (h : Hushed s) (v : Fin 8) (o : RequestOutcome) : Hushed (s.withdraw v o) := by
  have hended : Hushed (s.claimEnded v o) := by
    obtain ⟨os, he, -⟩ := s.claimEnded_spec v o
    rw [he]
    refine h.congr rfl ?_
    change (s.takeOut _).queue = s.queue
    rw [State.takeOut_queue, h.queue]
    rfl
  rw [State.withdraw_eq]
  exact hended.freeVoice v

theorem Hushed.releaseVoice (h : Hushed s) (v : Fin 8) (r : Rate) : Hushed (s.releaseVoice v r) := by
  have hfreed := h.freeVoice v
  unfold State.releaseVoice
  dsimp only
  cases (s.voice v).state with
  | free | claiming => exact h
  | priming =>
    cases r with
    | tail => exact h.beginTail v
    | fade | cut => exact hfreed
  | sounding =>
    match r with
    | .tail => exact Hushed.beginTail h.congr v
    | .fade 0 => exact hfreed
    | .fade (k + 1) | .cut => dsimp only; split; exacts [hfreed, h.congr]
  | releasing =>
    dsimp only
    split
    · split
      · exact hfreed
      · exact h.congr
    · exact h

theorem Hushed.take (h : Hushed s) (v : Fin 8) (c : Nat) (src : Source) : Hushed (s.take v c src) := by
  have hslot : ∀ b, Hushed (s.takeSlot v c src b) := fun _ => h.congr
  unfold State.take
  dsimp only
  split
  · rw [(hslot true).queueClaim_eq]
    exact hslot true
  · have hplayed := (hslot false).recordPlayed src
    rw [hplayed.decideAnnounce_eq]
    exact hplayed.arbitrate

/-! ## Serving (R36 to R43) -/

theorem Hushed.visit {α : Type} {f : α → State → State} (h : Hushed s) (hf : ∀ a u, Hushed u → Hushed (f a u)) (l : List α) :
    Hushed (visit f l s) := visit_keeps hf (fun _ _ hu => hu.congr) l h

theorem Hushed.stealFor (h : Hushed s) (p : Nat) : Hushed (s.stealFor p) := by
  unfold State.stealFor
  split
  · exact h
  · split
    · exact h.releaseVoice _ _
    · split
      · exact h.releaseVoice _ _
      · exact h

theorem Hushed.stepVoice (h : Hushed s) (c : Nat) (src : Source) : Hushed (s.stepVoice c src).1 := by
  unfold State.stepVoice
  split
  · exact h.take _ _ _
  · split
    · exact (h.recordOutcome _ _).congr
    · exact h.stealFor _

theorem Hushed.stepGroup (h : Hushed s) (c : Nat) (src : Source) : Hushed (s.stepGroup c src).1 := by
  unfold State.stepGroup
  dsimp only
  split
  · exact h.stepVoice _ _
  · split
    case h_1 => exact (h.visit (fun _ _ hu => hu.releaseVoice _ _) _).stepVoice _ _
    case h_2 | h_3 => split; exacts [h.stepVoice _ _, h.recordOutcome _ _]

theorem Hushed.toggleVoice (h : Hushed s) (v : Fin 8) : Hushed (s.toggleVoice v) := by
  unfold State.toggleVoice
  split
  · exact h.withdraw _ _
  · exact h.releaseVoice _ _

theorem Hushed.stepRetrigger (h : Hushed s) (c : Nat) (q : Cue) (src : Source) : Hushed (s.stepRetrigger c q src).1 := by
  unfold State.stepRetrigger
  split
  · exact h.stepGroup _ _
  · split
    · exact h.recordOutcome _ _
    · dsimp only
      split
      · exact h.recordOutcome _ _
      · exact (h.visit (fun _ _ hu => hu.toggleVoice _) _).recordOutcome _ _
    · exact (h.visit (fun _ _ hu => hu.releaseVoice _ _) _).stepGroup _ _
    · exact h.stepGroup _ _

theorem Hushed.decideRequest (h : Hushed s) (c : Nat) (latched : Bool) (src : Source) : Hushed (s.decideRequest c latched src).1 := by
  unfold State.decideRequest
  split
  · exact h.recordOutcome _ _
  · split
    · split
      · exact h
      · exact h.recordOutcome _ _
    · split
      · exact h.recordOutcome _ _
      · exact h.stepRetrigger _ _ _

theorem Hushed.serveLine (h : Hushed s) (n : Fin 8) : Hushed (s.serveLine n) := by
  unfold State.serveLine
  split
  · exact h
  next r _ =>
    have hd := h.decideRequest r.cue r.latched (.line n)
    split <;> rename_i he <;> rw [he] at hd
    · exact hd.congr
    · exact hd

theorem Hushed.serveRemote (fuel : Nat) (h : Hushed s) : Hushed (State.serveRemote fuel s) := by
  induction fuel generalizing s with
  | zero => exact h
  | succ n ih =>
    unfold State.serveRemote
    split
    · exact h
    next r _ _ =>
      have hd := h.decideRequest r.cue false .remote
      split <;> rename_i he <;> rw [he] at hd
      · exact ih hd.congr
      · exact hd

theorem Hushed.servePlace (h : Hushed s) (p : Fin 9) : Hushed (s.servePlace p) := by
  unfold State.servePlace
  split
  · exact h.serveLine _
  · exact h.serveRemote _

theorem Hushed.passesFrom (fuel : Nat) (h : Hushed s) : Hushed (State.passesFrom fuel s) := by
  induction fuel generalizing s with
  | zero => exact h
  | succ n ih =>
    unfold State.passesFrom
    split
    · exact h
    · exact ih (inOrder_keeps (P := Hushed) (fun p _ hu => hu.servePlace p) _ h.congr)

theorem Hushed.settlePasses (h : Hushed s) : Hushed s.settlePasses := h.passesFrom _

end Sys2Proof.Machine
end
section
/-! PROOF. A frame that bears the station's own number retires it (OwnNumberHeardRetiresTheStation). -/

namespace Sys2Proof.Machine

set_option Elab.async false

variable {s : State} {v : Fin 8} {g : Nat}

/-! ## The frame (R167, R168) -/

theorem isFreshStatus_of_status (b0 b1 b2 b3 b4 b5 : Byte) : isFreshStatus (frameOf 11 [b0, b1, b2, b3, b4, b5]) = b0.getLsbD 7 := rfl

/-- A frame of another kind or length is no STATUS (10.1). -/
theorem isFreshStatus_of_other {kind : BitVec 5} {payload : List Byte} (h : kind ≠ 11 ∨ payload.length ≠ 6) :
    isFreshStatus (frameOf kind payload) = false := by
  unfold frameOf Frame.ofPayload
  split
  case h_12 hkind =>
    refine absurd ?_ (h.resolve_right (not_not_intro rfl))
    exact BitVec.eq_of_toNat_eq hkind
  all_goals rfl

/-- A frame of another station that bears this one's number is counted, and goes to LDR alone. -/
theorem State.receiveFrame_of_own (f : Option Frame) (hmode : s.mode ≠ .loading) (hfly : s.flying = none) (hrx : s.rx = .receiving)
    (hfirst : 1 ≤ s.cfg.number) (hlast : s.cfg.number ≤ 30) :
    s.receiveFrame (BitVec.ofNat 5 s.cfg.number) f = s.counted.duplicateFrame (isFreshStatus f) := by
  have hreceive : s.canReceive = true := by
    simp [State.canReceive, State.isLoading, State.isFlying, hmode, hfly, hrx]
  have hsource : (BitVec.ofNat 5 s.cfg.number).toNat = s.cfg.number := by
    rw [BitVec.toNat_ofNat]
    omega
  have hstation : isNoStation (BitVec.ofNat 5 s.cfg.number) = false := by
    unfold isNoStation
    rw [hsource, beq_false_of_ne (by omega), beq_false_of_ne (by omega)]
    rfl
  have hown : s.ownNumber (BitVec.ofNat 5 s.cfg.number) = true := by
    unfold State.ownNumber
    rw [hstation, hsource, beq_self_eq_true]
    rfl
  unfold State.receiveFrame
  rw [hreceive, hown, State.countFrame_eq_counted]
  rfl

/-! ## The STATUS that answers (R168) -/

theorem noStatus_iff : NoStatus s.queue ↔ s.hasFrame Frame.isStatus = false := by
  unfold NoStatus State.hasFrame
  rw [List.any_eq_false]
  exact forall₂_congr fun e _ => Bool.eq_false_iff

theorem State.offerStatus_of_room (hno : NoStatus s.queue) (hroom : s.hasRoom) :
    s.offerStatus = { s with queue := placeEntry (newEntry (.status 0 0 0 0 0 0) s.cfg.number) s.queue } := by
  unfold State.offerStatus State.offer State.offerKey unformedStatus
  dsimp only
  rw [noStatus_iff.mp hno, if_neg Bool.false_ne_true, place_of_room _ _ hroom]

theorem State.offerStatus_of_status (h : ¬NoStatus s.queue) : s.offerStatus = s := by
  unfold State.offerStatus State.offer State.offerKey unformedStatus
  dsimp only
  rw [if_pos (eq_true_of_ne_false fun hf => h (noStatus_iff.mpr hf))]

/-! ## Entry to SILENT (R69, R92, R169) -/

/-- The station as it enters SILENT, before its claims are withdrawn. -/
def State.silenced (s : State) : State :=
  { s with
    mode := .silent
    join := .done
    queue := []
    owedEnd := none
    voices := s.voices.map Voice.toLocal }

theorem State.enterSilent_eq (s : State) :
    s.enterSilent =
      visit (fun v t => (State.withdraw t v .refused).settlePasses) (slots.filter fun v => s.claimQueued v) s.silenced := rfl

theorem Voice.toLocal_eq (w : Voice) : w.toLocal = if w.announce = .queued then { w with announce := .localOnly } else w := by
  unfold Voice.toLocal
  split
  next ha => rw [if_pos ha]
  next ha => rw [if_neg (by rw [ha]; exact nofun)]
  next ha => rw [if_neg (by rw [ha]; exact nofun)]

theorem Voice.toLocal_frame (w : Voice) : w.toLocal = { w with announce := w.toLocal.announce } := by
  unfold Voice.toLocal
  split <;> rfl

theorem State.silenced_voice (s : State) (v : Fin 8) : s.silenced.voice v = (s.voice v).toLocal := Table.get_map _ _ v

theorem State.silenced_cueOf (s : State) (v : Fin 8) : s.silenced.cueOf (s.silenced.voice v) = s.cueOf (s.voice v) :=
  cueOf_congr rfl (by rw [State.silenced_voice, Voice.toLocal_frame])

theorem State.silenced_hushed (s : State) : Hushed s.silenced := ⟨rfl, rfl, rfl⟩

theorem State.enterSilent_hushed (s : State) : Hushed s.enterSilent :=
  s.silenced_hushed.visit (fun _ _ hu => (hu.withdraw _ _).settlePasses) _

theorem State.enterSilent_ducks (s : State) : s.enterSilent.ducks = s.ducks :=
  ((kept_stable s.silenced).visitServing (fun _ _ hu => (kept_stable s.silenced).withdraw _ _ hu) _ (Kept.refl _)).ducks

theorem State.enterSilent_of_no_claims (h : ∀ v, (s.voice v).state ≠ .claiming) : s.enterSilent = s.silenced := by
  have hnone : (slots.filter fun v => s.claimQueued v) = [] :=
    List.filter_eq_nil_iff.mpr fun v _ hv => h v (State.claimQueued_iff.mp hv).1
  rw [State.enterSilent_eq, hnone]
  rfl

theorem OnlyClaimant.silenced (h : OnlyClaimant s g v) : OnlyClaimant s.silenced g v := by
  have hstate : ∀ u, (s.silenced.voice u).state = (s.voice u).state := fun u => by rw [State.silenced_voice, Voice.toLocal_frame]
  refine ⟨(hstate v).trans h.state, by rw [State.silenced_cueOf]; exact h.group, fun u hu hg => h.only u ((hstate u).symm.trans hu) ?_⟩
  rwa [State.silenced_cueOf] at hg

/-- Each claim that waits is withdrawn in its turn, REFUSED (R92). -/
theorem NoRequests.enterSilent (h : NoRequests s) (hq : s.claimQueued v = true) :
    ∃ x A, StopTurn .refused A v s.silenced x ((x.withdraw v .refused).settlePasses) s.enterSilent := by
  have hsilenced : NoRequests s.silenced := ⟨h.lines, h.remote, h.passes⟩
  obtain ⟨-, hturns⟩ := hsilenced.visitFrom_stops (o := .refused) (f := fun v t => (State.withdraw t v .refused).settlePasses)
    (J := fun a x => (x.voice a).state = .claiming)
    (fun a x y B hxy ha hx => (hxy.others a ha).state.trans hx)
    (fun a x hx hc => by rw [hx.withdraw]; exact withdraw_stops hc)
    _ _ (Nat.le_refl _) (slots_filter_nodup fun v => s.claimQueued v) fun a ha => by
      rw [State.silenced_voice, Voice.toLocal_frame]
      exact (State.claimQueued_iff.mp (List.mem_filter.mp ha).2).1
  obtain ⟨x, hx⟩ := hturns v (List.mem_filter.mpr ⟨mem_slots v, hq⟩)
  exact ⟨x, _, hx⟩

/-- The voice of a claim that waits as the station enters SILENT is FREE after it, and the request it stood for is REFUSED. -/
theorem NoRequests.enterSilent_claimant (h : NoRequests s) (only : OnlyClaimant s g v)
    (hw : s.hasWaiting (Frame.isClaimOf g) = true) :
    s.enterSilent.voice v = Voice.freed (s.voice v).generation ∧
      ((s.voice v).claimed = .openClaim → ∀ p, (s.voice v).source.place = some p → s.enterSilent.outcomes.get p = some .refused) := by
  obtain ⟨x, A, hx⟩ := h.enterSilent (only.claimQueued hw)
  obtain ⟨hvoice, -, houtcome⟩ := hx.withdrawn (hx.requests.withdraw v .refused) only.silenced rfl
  rw [State.silenced_voice, Voice.toLocal_frame] at hvoice houtcome
  exact ⟨hvoice, houtcome⟩

theorem State.duplicateFrame_of_retires {fresh : Bool} (h : s.mode = .joining ∨ s.mode = .run ∧ fresh = false) :
    s.duplicateFrame fresh = s.enterSilent := by
  unfold State.duplicateFrame
  rcases h with hm | ⟨hm, hf⟩
  · rw [hm]
  · rw [hm, hf]
    rfl

theorem State.duplicateFrame_of_silent (h : s.mode = .silent) (fresh : Bool) : s.duplicateFrame fresh = s := by
  unfold State.duplicateFrame
  rw [h]

theorem State.duplicateFrame_of_fresh (h : s.mode = .run) : s.duplicateFrame true = s.offerStatus := by
  unfold State.duplicateFrame
  rw [h]
  rfl

/-- Settles O59: the frame goes to LDR alone (`State.receiveFrame_of_own`), which answers it, retires the station
(`State.enterSilent_hushed`, `NoRequests.enterSilent_claimant`) or does nothing, by the mode. -/
theorem ownNumberHeardRetiresTheStation : Obligations.OwnNumberHeardRetiresTheStation := by
  intro s c fresh hmode hfly hrx hfirst hlast hc retired
  have hown := fun f => State.receiveFrame_of_own f hmode hfly hrx hfirst hlast
  have hexec : exec c s = .next (s.counted.duplicateFrame fresh) := by
    rcases hc with ⟨b0, b1, b2, b3, b4, b5, rfl, rfl | rfl⟩ | ⟨kind, payload, hlength, hother, rfl, rfl⟩
    · exact congrArg Host.Outcome.next (hown _)
    · exact congrArg Host.Outcome.next (hown _)
    · refine (if_pos hlength).trans (congrArg Host.Outcome.next ((hown _).trans ?_))
      rw [isFreshStatus_of_other hother]
  rw [hexec]
  refine ⟨fun hsilent => ?_, fun hrun hfresh => ?_, fun hretires => ?_⟩
  · rw [State.duplicateFrame_of_silent (s := s.counted) hsilent]
  · rw [hfresh, State.duplicateFrame_of_fresh (s := s.counted) hrun]
    refine ⟨fun hno hroom => ?_, fun hstatus => ?_⟩
    · rw [State.offerStatus_of_room (s := s.counted) hno hroom]
      exact ⟨_, placeEntry_placed _ _, rfl⟩
    · rw [State.offerStatus_of_status (s := s.counted) hstatus]
  · rw [State.duplicateFrame_of_retires (s := s.counted) hretires]
    have hhushed := s.counted.enterSilent_hushed
    refine ⟨fun hnone => ?_, _, rfl, hhushed.mode, hhushed.queue, hhushed.owedEnd, s.counted.enterSilent_ducks,
      fun v g only hw hn => ?_⟩
    · have hlocal : (fun w : Voice => if w.announce = .queued then { w with announce := .localOnly } else w) = Voice.toLocal :=
        funext fun w => w.toLocal_eq.symm
      rw [State.enterSilent_of_no_claims (s := s.counted) hnone]
      simp only [retired]
      rw [hlocal]
      rfl
    · have hcounted : NoRequests s.counted := ⟨hn.lines, hn.remote, hn.passes⟩
      exact hcounted.enterSilent_claimant (only.congr (fun _ => rfl) rfl) hw

end Sys2Proof.Machine
end
section
/-! PROOF. The configuration block: the read under way, the test of one read, and the two reads of LOADING
(ConfigurationIsTakenOrDefaulted). -/

namespace Sys2Proof.Machine

set_option Elab.async false

variable {s : State} {bytes : List Byte}

/-! ## The read that LOADING waits for (R160, R161) -/

/-- Until a configuration is settled, LDR reads the configuration block, at flash address 0 and over one wire. -/
theorem State.flashRead?_of_config (hm : s.mode = .loading) (hl : s.load ≠ .directory) :
    s.flashRead? = some { address := 0, bytes := configBytes, wide := false } := by
  have hloading : s.isLoading = true := decide_eq_true hm
  unfold State.flashRead?
  rw [if_pos hloading]
  cases h : s.load with
  | config => rfl
  | configAgain => rfl
  | directory => exact absurd h hl

/-- A CONFIG_READ_END of the block's length that LOADING waits for is the test of its bytes. -/
theorem execConfigReadEnd_of_awaited (hb : bytes.length = configBytes) (hm : s.mode = .loading) (hl : s.load ≠ .directory) :
    execConfigReadEnd bytes s = .next (s.testConfig bytes) := by
  have hawaits : s.awaitsConfig = true := Bool.and_eq_true_iff.mpr ⟨decide_eq_true hm, decide_eq_true hl⟩
  have hbrings : s.readBrings bytes = true := by
    unfold State.readBrings
    rw [State.flashRead?_of_config hm hl]
    exact decide_eq_true hb
  unfold execConfigReadEnd
  rw [if_neg (not_not_intro hb), hawaits, hbrings]
  rfl

/-! ## The test of one read (R161, R162) -/

/-- A block that agrees is used, at the first read and at the second. -/
theorem State.testConfig_of_agrees (hl : s.load ≠ .directory) (ha : configAgrees bytes = true) :
    s.testConfig bytes = s.useConfig (decodeConfig bytes) (configFieldDefaulted bytes) := by
  unfold State.testConfig
  cases h : s.load with
  | config => exact if_pos ha
  | configAgain => exact if_pos ha
  | directory => exact absurd h hl

theorem State.testConfig_of_first_failure (hl : s.load = .config) (ha : configAgrees bytes = false) :
    s.testConfig bytes = { s with load := .configAgain } := by
  unfold State.testConfig
  rw [hl]
  exact if_neg (Bool.eq_false_iff.mp ha)

theorem State.testConfig_of_second_failure (hl : s.load = .configAgain) (ha : configAgrees bytes = false) :
    s.testConfig bytes = s.useConfig StationConfig.default true := by
  unfold State.testConfig
  rw [hl]
  exact if_neg (Bool.eq_false_iff.mp ha)

/-- Settles O9: each clause is the awaited CONFIG_READ_END (`execConfigReadEnd_of_awaited`) with what the test of its block gives at
that read. -/
theorem configurationIsTakenOrDefaulted : Obligations.ConfigurationIsTakenOrDefaulted := by
  intro bytes s hb hm
  have hexec : s.load ≠ .directory → exec (.configReadEnd bytes) s = .next (s.testConfig bytes) :=
    execConfigReadEnd_of_awaited hb hm
  refine ⟨State.flashRead?_of_config hm, fun hl ha => ?_, fun hl ha => ?_, fun hl ha => ?_⟩
  · rw [hexec hl, State.testConfig_of_agrees hl ha]
    rfl
  · rw [hexec (hl ▸ nofun), State.testConfig_of_first_failure hl ha]
  · rw [hexec (hl ▸ nofun), State.testConfig_of_second_failure hl ha]
    rfl

end Sys2Proof.Machine
end
section
/-! PROOF. V through fades and cuts (FadeMovesOneCodePerStepLength, CutReachesZeroInEighths), and the steps of V and D that come before
their sample instant (FadeStepMovesOneCode, DuckStepMovesOneCode). -/

namespace Sys2Proof.Machine

set_option Elab.async false

variable {w : Voice} {q : Cue} {k : Nat}

/-! ## One instant of a fade or a cut (R95, R96) -/

theorem Voice.stepV_of_fade (h : w.vRate q = some (.fade k)) : w.stepV q = w.fadeOnce k := by
  unfold Voice.stepV
  rw [h]

theorem Voice.fadeOnce_of_target (h : w.level = w.target) : w.fadeOnce k = { w with vCount := 0 } := if_pos h

theorem Voice.fadeOnce_of_short (h : w.level ≠ w.target) (hk : k ≠ 0) (hc : w.vCount + 1 < stepLength k) :
    w.fadeOnce k = { w with vCount := w.vCount + 1 } := by
  unfold Voice.fadeOnce
  rw [if_neg h, if_neg hk, if_neg (Nat.not_le_of_gt hc)]

theorem Voice.fadeOnce_of_full (h : w.level ≠ w.target) (hk : k ≠ 0) (hc : stepLength k ≤ w.vCount + 1) :
    w.fadeOnce k = { w with level := toward w.level w.target, vCount := 0 } := by
  unfold Voice.fadeOnce
  rw [if_neg h, if_neg hk, if_pos hc]

theorem Voice.vRate_of_cut (hs : w.state = .releasing) (hr : w.rate = some .cut) : w.vRate q = some .cut := by
  unfold Voice.vRate
  rw [hs, hr]
  rfl

theorem Voice.stepV_of_cut (h : w.vRate q = some .cut) : w.stepV q = { w with level := w.level - 8, vCount := 0 } := by
  unfold Voice.stepV
  rw [h]
  rfl

theorem toward_of_lt {x t : Nat} (h : x < t) : toward x t = x + 1 := if_pos h

theorem toward_of_gt {x t : Nat} (h : t < x) : toward x t = x - 1 := by
  unfold toward
  rw [if_neg (Nat.not_lt_of_gt h), if_pos h]

/-! ## A run of instants at one rate -/

/-- A code that has moved m codes from x toward t and has stopped there. -/
def movedToward (x t m : Nat) : Nat := if x ≤ t then min t (x + m) else max t (x - m)

theorem movedToward_of_le {x t : Nat} (h : x ≤ t) (m : Nat) : movedToward x t m = min t (x + m) := if_pos h

theorem movedToward_of_ge {x t : Nat} (h : t ≤ x) (m : Nat) : movedToward x t m = max t (x - m) := by
  unfold movedToward
  split <;> omega

@[simp] theorem movedToward_zero (x t : Nat) : movedToward x t 0 = x := by
  unfold movedToward
  split <;> omega

/-- Each further move is one code toward the target, and none at it (R94). -/
theorem movedToward_succ (x t m : Nat) : movedToward x t (m + 1) = toward (movedToward x t m) t := by
  rcases Nat.le_total x t with h | h
  · rw [movedToward_of_le h, movedToward_of_le h]
    unfold toward
    split_ifs <;> omega
  · rw [movedToward_of_ge h, movedToward_of_ge h]
    unfold toward
    split_ifs <;> omega

theorem movedToward_stays {x t m n : Nat} (h : movedToward x t m = t) (hmn : m ≤ n) : movedToward x t n = t := by
  unfold movedToward at h ⊢
  split_ifs at h ⊢ <;> omega

/-- A voice n instants into a fade that makes a code each `len` instants (R95): it has moved n / `len` codes, and its counter stands at
what is left over, or at 0 where V has come to its target. -/
def Voice.fadedFor (w : Voice) (len n : Nat) : Voice :=
  { w with
    level := movedToward w.level w.target (n / len)
    vCount := if movedToward w.level w.target (n / len) = w.target then 0 else n % len }

theorem Voice.fadedFor_zero (h : w.vCount = 0) (len : Nat) : w.fadedFor len 0 = w := by
  cases w
  cases h
  simp [Voice.fadedFor]

/-- One more instant: V stands at its target, waits for its counter, or moves one code. -/
theorem Voice.fadeOnce_fadedFor (hk : k ≠ 0) (n : Nat) :
    (w.fadedFor (stepLength k) n).fadeOnce k = w.fadedFor (stepLength k) (n + 1) := by
  have hpos : 0 < stepLength k := Nat.two_pow_pos _
  by_cases hlevel : movedToward w.level w.target (n / stepLength k) = w.target
  · rw [Voice.fadeOnce_of_target hlevel]
    have hnext := movedToward_stays hlevel (Nat.div_le_div_right (c := stepLength k) (Nat.le_succ n))
    unfold Voice.fadedFor
    rw [hlevel, hnext]
    simp
  · have hcount : (w.fadedFor (stepLength k) n).vCount = n % stepLength k := if_neg hlevel
    have hn : n % stepLength k + stepLength k * (n / stepLength k) = n := Nat.mod_add_div _ _
    by_cases hshort : n % stepLength k + 1 < stepLength k
    · obtain ⟨hdiv, hmod⟩ : (n + 1) / stepLength k = n / stepLength k ∧ (n + 1) % stepLength k = n % stepLength k + 1 :=
        (Nat.div_mod_unique hpos).mpr ⟨by omega, hshort⟩
      rw [Voice.fadeOnce_of_short hlevel hk (by rwa [hcount]), hcount]
      unfold Voice.fadedFor
      rw [hdiv, hmod, if_neg hlevel, if_neg hlevel]
    · obtain ⟨hdiv, hmod⟩ : (n + 1) / stepLength k = n / stepLength k + 1 ∧ (n + 1) % stepLength k = 0 :=
        (Nat.div_mod_unique hpos).mpr ⟨by have := Nat.mod_lt n hpos; rw [Nat.mul_succ]; omega, hpos⟩
      rw [Voice.fadeOnce_of_full hlevel hk (by rw [hcount]; exact Nat.le_of_not_lt hshort)]
      unfold Voice.fadedFor
      rw [hdiv, hmod, movedToward_succ, ite_self]

theorem Voice.fade_iterate (h : w.vRate q = some (.fade k)) (hk : k ≠ 0) (h0 : w.vCount = 0) (n : Nat) :
    (fun x : Voice => x.stepV q)^[n] w = w.fadedFor (stepLength k) n := by
  induction n with
  | zero => exact (Voice.fadedFor_zero h0 _).symm
  | succ n ih =>
    rw [Function.iterate_succ_apply', ih, ← Voice.fadeOnce_fadedFor hk]
    exact Voice.stepV_of_fade h

theorem Voice.cut_iterate (h : w.vRate q = some .cut) (h0 : w.vCount = 0) (n : Nat) :
    (fun x : Voice => x.stepV q)^[n] w = { w with level := w.level - 8 * n, vCount := 0 } := by
  induction n with
  | zero =>
    cases w
    cases h0
    rfl
  | succ n ih =>
    rw [Function.iterate_succ_apply', ih, Nat.mul_succ, Nat.sub_add_eq]
    exact Voice.stepV_of_cut (w := { w with level := w.level - 8 * n, vCount := 0 }) h

/-- Settles O16: one instant is one case of `Voice.fadeOnce`, and n of them are `Voice.fadedFor` (`Voice.fade_iterate`). -/
theorem fadeMovesOneCodePerStepLength : Obligations.FadeMovesOneCodePerStepLength := by
  intro w q k hrate hk _
  have hk0 : k ≠ 0 := Nat.ne_of_gt hk
  rw [Voice.stepV_of_fade hrate]
  refine ⟨fun h => ?_, fun h hc => ?_, fun h hc => ?_, fun h0 n => ?_⟩
  · rw [Voice.fadeOnce_of_target h]
    exact ⟨rfl, rfl⟩
  · rw [Voice.fadeOnce_of_short h hk0 hc]
    exact ⟨rfl, rfl⟩
  · rw [Voice.fadeOnce_of_full h hk0 hc]
    exact ⟨rfl, toward_of_lt, toward_of_gt⟩
  · rw [Voice.fade_iterate hrate hk0 h0]
    exact ⟨fun h => movedToward_of_le h _, fun h => movedToward_of_ge h _⟩

/-- Settles O17: n instants of a cut take 8 n codes from V (`Voice.cut_iterate`). -/
theorem cutReachesZeroInEighths : Obligations.CutReachesZeroInEighths := by
  intro w q n hs hr h0
  rw [Voice.cut_iterate (Voice.vRate_of_cut hs hr) h0]
  refine ⟨rfl, rfl, ?_⟩
  unfold ceilDiv
  dsimp only
  omega

/-! ## The early steps (log entry 7) -/

theorem execFadeStep_of_due {s : State} {v : Fin 8} (h : (s.voice v).fadeDue (s.cueOf (s.voice v)) = true) :
    execFadeStep v s = .next (s.setVoice v { (s.voice v).stepV (s.cueOf (s.voice v)) with vDone := true }) :=
  congrArg Host.Outcome.next (if_pos h)

theorem execDuckStep_of_due {s : State} {v : Fin 8} (h : (s.voice v).duckDue s.cfg (duckTarget s v) = true) :
    execDuckStep v s =
      .next (s.setVoice v
        { (s.voice v).stepD s.cfg (duckTarget s v) with
          dBefore := some { duck := (s.voice v).duck, dCount := (s.voice v).dCount, dDir := (s.voice v).dDir } }) :=
  congrArg Host.Outcome.next (if_pos h)

/-- The rate of V is a fade index in SOUNDING and in a RELEASING by fade (R94). -/
theorem Voice.vRate_of_fade (h : w.state = .sounding ∧ q.fadeIn = k ∨ w.state = .releasing ∧ w.rate = some (.fade k)) :
    w.vRate q = some (.fade k) := by
  unfold Voice.vRate
  rcases h with ⟨hs, rfl⟩ | ⟨hs, hr⟩
  · rw [hs]
  · rw [hs, hr]
    rfl

theorem Voice.fadeDue_of_full (h : w.vRate q = some (.fade k)) (hk : k ≠ 0) (hlevel : w.level ≠ w.target)
    (hc : stepLength k ≤ w.vCount + 1) (hd : w.vDone = false) : w.fadeDue q = true := by
  unfold Voice.fadeDue
  rw [h]
  simp [hk, hlevel, hc, hd]

/-- Settles O18: the step is due, and it is the move of `Voice.fadeOnce_of_full`. -/
theorem fadeStepMovesOneCode : Obligations.FadeStepMovesOneCode := by
  intro s v k hrate hk hlevel hc hd
  have hfade := Voice.vRate_of_fade hrate
  have hk0 : k ≠ 0 := Nat.ne_of_gt hk
  have hfull : stepLength k ≤ (s.voice v).vCount + 1 := Nat.le_of_eq hc.symm
  have hmoves : toward (s.voice v).level (s.voice v).target =
      if (s.voice v).level < (s.voice v).target then (s.voice v).level + 1 else (s.voice v).level - 1 := by
    split
    next hlt => exact toward_of_lt hlt
    next hge => exact toward_of_gt (by omega)
  refine (execFadeStep_of_due (Voice.fadeDue_of_full hfade hk0 hlevel hfull hd)).trans ?_
  rw [Voice.stepV_of_fade hfade, Voice.fadeOnce_of_full hlevel hk0 hfull, hmoves]

theorem directionOf_of_lt {d t : Nat} (h : d < t) : directionOf d t = .rising := if_pos h

theorem directionOf_of_gt {d t : Nat} (h : t < d) : directionOf d t = .falling := by
  unfold directionOf
  rw [if_neg (Nat.not_lt_of_gt h), if_pos h]

theorem directionOf_eq_atRest_iff (d t : Nat) : directionOf d t = .atRest ↔ d = t := by
  unfold directionOf
  split_ifs <;> simp <;> omega

theorem Voice.turn_of_recorded {d : Nat} (h : directionOf w.duck d = w.dDir) : w.turn d = w := if_pos h

/-- D's step is due where the counter of its direction comes to the step length at the coming instant (R101). -/
theorem Voice.duckDue_of_full {c : StationConfig} {d : Nat} (hdir : directionOf w.duck d = w.dDir) (ha : w.state.active = true)
    (hb : w.dBefore = none) (hne : w.duck ≠ d) (hk : c.duckIndex w.dDir ≠ 0) (hc : stepLength (c.duckIndex w.dDir) ≤ w.dCount + 1) :
    w.duckDue c d = true := by
  unfold Voice.duckDue
  rw [Voice.turn_of_recorded hdir]
  simp [ha, hb, hne, hk, hc]

theorem Voice.stepD_of_full {c : StationConfig} {d : Nat} (hdir : directionOf w.duck d = w.dDir) (hne : w.duck ≠ d)
    (hk : c.duckIndex w.dDir ≠ 0) (hc : stepLength (c.duckIndex w.dDir) ≤ w.dCount + 1) :
    w.stepD c d = { w with duck := toward w.duck d, dCount := 0, dDir := directionOf (toward w.duck d) d } := by
  unfold Voice.stepD
  rw [Voice.turn_of_recorded hdir]
  dsimp only
  rw [if_neg hne, if_neg hk, if_pos hc]

/-- Settles O19: rising or falling, the recorded direction is the one to move in and its counter comes to the step length, so that the
step is due and D moves one code (`Voice.stepD_of_full`). -/
theorem duckStepMovesOneCode : Obligations.DuckStepMovesOneCode := by
  intro s v w target ha hb hdue
  have hstep : directionOf w.duck target = w.dDir ∧ w.duck ≠ target ∧ s.cfg.duckIndex w.dDir ≠ 0 ∧
      stepLength (s.cfg.duckIndex w.dDir) ≤ w.dCount + 1 := by
    rcases hdue with ⟨hlt, hdir, hk, hc⟩ | ⟨hgt, hdir, hk, hc⟩
    · rw [hdir]
      exact ⟨directionOf_of_lt hlt, Nat.ne_of_lt hlt, Nat.ne_of_gt hk, Nat.le_of_eq hc.symm⟩
    · rw [hdir]
      exact ⟨directionOf_of_gt hgt, Nat.ne_of_gt hgt, Nat.ne_of_gt hk, Nat.le_of_eq hc.symm⟩
  obtain ⟨hdir, hne, hk, hc⟩ := hstep
  refine ⟨toward w.duck target, directionOf (toward w.duck target) target, ?_, toward_of_lt, toward_of_gt,
    directionOf_eq_atRest_iff _ _⟩
  refine (execDuckStep_of_due (Voice.duckDue_of_full hdir ha hb hne hk hc)).trans ?_
  rw [Voice.stepD_of_full hdir hne hk hc]

end Sys2Proof.Machine
end
section
/-! PROOF. The duck target is the largest depth that applies (DuckTargetIsLargestDepth). -/

namespace Sys2Proof.Machine

set_option Elab.async false

variable {s : State}

theorem meets_iff (a b : ClassSet) : meets a b = true ↔ a &&& b ≠ 0 := bne_iff_ne

/-- Where every entry has time remaining, no entry is on its way out of the list (R108; log entry 2). -/
theorem State.ducksLive.liveDucks (h : s.ducksLive) : liveDucks s.ducks = s.ducks :=
  List.filter_eq_self.mpr fun e he => decide_eq_true (h e he)

/-- A depth that the duck list contributes (R99). -/
theorem mem_listDepths {l : List DuckEntry} {listen : ClassSet} {d : Nat} :
    d ∈ listDepths l listen ↔ ∃ e ∈ l, e.classes &&& listen ≠ 0 ∧ e.depth = d := by
  unfold listDepths
  simp only [List.mem_map, List.mem_filter, meets_iff, and_assoc]

/-- A voice short of its end of data ducks others in PRIMING, SOUNDING and RELEASING. -/
theorem State.ducksOthers_of_not_atEnd {u : Fin 8} (h : (s.voice u).atEnd (s.cueOf (s.voice u)) = false) :
    s.ducksOthers u = (s.voice u).state.active := by
  unfold State.ducksOthers
  rw [h]
  exact Bool.and_true _

/-- A depth that a fellow voice contributes (R99). -/
theorem mem_voiceDepths (hend : ∀ u, (s.voice u).atEnd (s.cueOf (s.voice u)) = false) {v : Fin 8} {listen : ClassSet} {d : Nat} :
    d ∈ voiceDepths s v listen ↔
      ∃ u : Fin 8, u ≠ v ∧ (s.voice u).state.active = true ∧ (s.cueOf (s.voice u)).emit &&& listen ≠ 0 ∧
        (s.cueOf (s.voice u)).depth = d := by
  unfold voiceDepths
  simp only [List.mem_map, List.mem_filter, mem_slots, Bool.and_eq_true, decide_eq_true_iff, meets_iff,
    fun u => State.ducksOthers_of_not_atEnd (hend u), true_and, and_assoc]

/-- What folds by `max` from 0 is the largest of the list, or 0. -/
theorem foldl_max_spec (l : List Nat) : (∀ d ∈ l, d ≤ l.foldl max 0) ∧ (l.foldl max 0 ∈ l ∨ l.foldl max 0 = 0) := by
  obtain ⟨hmem, hle⟩ := List.max?_eq_some_iff.mp (List.max?_cons' (x := 0) (xs := l))
  exact ⟨fun d hd => hle d (List.mem_cons_of_mem 0 hd), (List.mem_cons.mp hmem).symm⟩

/-- Settles O20: the depths that D* is the largest of are those of the list (`mem_listDepths`) and of the voices (`mem_voiceDepths`). -/
theorem duckTargetIsLargestDepth : Obligations.DuckTargetIsLargestDepth := by
  intro s v hlive hend listen applies
  have happlies : ∀ d, d ∈ listDepths (liveDucks s.ducks) listen ++ voiceDepths s v listen ↔ applies d := fun d => by
    rw [List.mem_append, hlive.liveDucks, mem_listDepths, mem_voiceDepths hend]
  obtain ⟨hle, hmem⟩ := foldl_max_spec (listDepths (liveDucks s.ducks) listen ++ voiceDepths s v listen)
  exact ⟨fun d hd => hle d ((happlies d).mpr hd), hmem.imp_left (happlies _).mp⟩

end Sys2Proof.Machine
end
section
/-! PROOF. The gain table is the nearest integer to its formula (GainIsNearestInteger). -/

namespace Sys2Proof.Machine

set_option Elab.async false

variable {e f k x y : Nat}

/-- Halving ends at a number that is admitted while the next one is not. -/
theorem bisect_spec {p : Nat → Bool} (n : Nat) {base : Nat} (hbase : p base = true) (hend : p (base + 2 ^ n) = false) :
    p (bisect p n base) = true ∧ p (bisect p n base + 1) = false := by
  induction n generalizing base with
  | zero => exact ⟨hbase, hend⟩
  | succ n ih =>
    unfold bisect
    split
    next hmid => exact ih hmid (by rw [Nat.add_assoc, ← Nat.two_mul, ← Nat.pow_succ']; exact hend)
    next hmid => exact ih hbase (Bool.eq_false_iff.mpr hmid)

theorem gainAtMost_iff : gainAtMost k x = true ↔ (2 * x - 1) ^ 16 * 2 ^ k ≤ 2 ^ 256 := decide_eq_true_iff

theorem gainAtMost_succ : gainAtMost k (x + 1) = false ↔ 2 ^ 256 < (2 * x + 1) ^ 16 * 2 ^ k := by
  rw [Bool.eq_false_iff, ne_eq, gainAtMost_iff, Nat.not_le]
  rfl

/-- A smaller number is at most a larger value (R111). -/
theorem gainAtMost_anti (hx : x ≤ y) {j : Nat} (hk : k ≤ j) (h : gainAtMost j y = true) : gainAtMost k x = true := by
  rw [gainAtMost_iff] at h ⊢
  refine le_trans (Nat.mul_le_mul (Nat.pow_le_pow_left (by omega) 16) (Nat.pow_le_pow_right (by decide) hk)) h

theorem gain_spec (he : e ≠ 0) : gainAtMost (255 - e) (gain e) = true ∧ gainAtMost (255 - e) (gain e + 1) = false := by
  have hgain : gain e = bisect (gainAtMost (255 - e)) 16 0 := if_neg he
  have hzero : gainAtMost (255 - e) 0 = true := gainAtMost_iff.mpr (by norm_num)
  have hlast : gainAtMost (255 - e) (0 + 2 ^ 16) = false := by
    refine gainAtMost_succ.mpr (Nat.lt_of_lt_of_le ?_ (Nat.le_mul_of_pos_right _ (Nat.two_pow_pos _)))
    norm_num
  rw [hgain]
  exact bisect_spec 16 hzero hlast

/-- G(e) is the one number that is at most the value while the next is not. -/
theorem gain_eq (he : e ≠ 0) (hx : gainAtMost (255 - e) x = true) (hy : gainAtMost (255 - e) (x + 1) = false) : gain e = x := by
  obtain ⟨hle, hlt⟩ := gain_spec he
  have hbelow : ∀ {a b : Nat}, gainAtMost (255 - e) a = true → gainAtMost (255 - e) (b + 1) = false → a ≤ b := by
    intro a b ha hb
    by_contra hab
    rw [gainAtMost_anti (by omega) (Nat.le_refl _) ha] at hb
    cases hb
  exact Nat.le_antisymm (hbelow hle hy) (hbelow hx hlt)

theorem gain_mono (hef : e ≤ f) : gain e ≤ gain f := by
  by_cases he : e = 0
  · rw [he]
    exact Nat.zero_le _
  · by_contra hlt
    have hnot := (gain_spec (e := f) (by omega)).2
    rw [gainAtMost_anti (by omega) (by omega) (gain_spec he).1] at hnot
    cases hnot

theorem gain_pos (he : 1 ≤ e) : 1 ≤ gain e := by
  by_contra hzero
  have hnot := (gain_spec (Nat.ne_of_gt he)).2
  rw [gainAtMost_anti (x := gain e + 1) (y := 1) (by omega) (Nat.le_refl _) (gainAtMost_iff.mpr ?_)] at hnot
  · cases hnot
  · rw [Nat.mul_one, Nat.one_pow, Nat.one_mul]
    exact Nat.pow_le_pow_right (by decide) (by omega)

/-- No value of the formula lies halfway between two integers (R111): an odd number's power times 2^k is 2^256 for no k but 256. -/
theorem odd_pow_mul_two_pow_ne {k : Nat} (hx : 1 ≤ x) (hk : k < 256) : (2 * x - 1) ^ 16 * 2 ^ k ≠ 2 ^ 256 := by
  intro h
  have hodd : Nat.Coprime (2 * x - 1) 2 := (Nat.coprime_two_right).mpr ⟨x - 1, by omega⟩
  have hone : (2 * x - 1) ^ 16 = 1 :=
    Nat.Coprime.eq_one_of_dvd (Nat.Coprime.pow 16 256 hodd) (Dvd.intro _ h)
  rw [hone, Nat.one_mul] at h
  exact absurd (Nat.pow_right_injective (Nat.le_refl 2) h) (Nat.ne_of_lt hk)

theorem gain_full : gain 255 = 32768 := gain_eq (by decide) (gainAtMost_iff.mpr (by norm_num)) (gainAtMost_succ.mpr (by norm_num))

/-- Settles O21: G(e) is the largest number whose half-step below is at most the value (`gain_spec`), and never at it
(`odd_pow_mul_two_pow_ne`). -/
theorem gainIsNearestInteger : Obligations.GainIsNearestInteger := by
  refine ⟨rfl, fun e he _ => ?_, fun e f hef _ => gain_mono hef, fun e he => gain_full ▸ gain_mono he, gain_full, ?_, ?_⟩
  · obtain ⟨hle, hlt⟩ := gain_spec (Nat.ne_of_gt he)
    exact ⟨lt_of_le_of_ne (gainAtMost_iff.mp hle) (odd_pow_mul_two_pow_ne (gain_pos he) (by omega)), gainAtMost_succ.mp hlt⟩
  · exact gain_eq (by decide) (gainAtMost_iff.mpr (by norm_num)) (gainAtMost_succ.mpr (by norm_num))
  · exact gain_eq (by decide) (gainAtMost_iff.mpr (by norm_num)) (gainAtMost_succ.mpr (by norm_num))

end Sys2Proof.Machine
end
section
/-! PROOF. Frames of other stations meet the duck list: START (StartMeetsTheDuckList), END (EndRemovesItsDuckEntry) and HOLD
(HoldSetsItsDuckEntry). -/

namespace Sys2Proof.Machine

set_option Elab.async false

variable {s t : State} {src : BitVec 5} {l : List DuckEntry} {e : DuckEntry} {source tag n : Nat}

/-! ## The entry of a key (R103) -/

/-- Where at most one member is asked for, removing the first of them removes them all. -/
theorem eraseP_eq_filter {α : Type} {p : α → Bool} {l : List α} (h : l.Pairwise fun a b => ¬(p a = true ∧ p b = true)) :
    l.eraseP p = l.filter fun a => !p a := by
  induction l with
  | nil => rfl
  | cons a l ih =>
    obtain ⟨ha, hl⟩ := List.pairwise_cons.mp h
    by_cases hp : p a = true
    · have hothers : ∀ b ∈ l, (!p b) = true := fun b hb => by simpa [hp] using ha b hb
      rw [List.eraseP_cons_of_pos hp, List.filter_cons_of_neg (by simp [hp]), List.filter_eq_self.mpr hothers]
    · rw [List.eraseP_cons_of_neg hp, List.filter_cons_of_pos (by simp [hp]), ih hl]

theorem DuckEntry.not_hasKey_eq_decide (source tag : Nat) :
    (fun e : DuckEntry => !e.hasKey source tag) = fun e => decide (¬(e.source = source ∧ e.tag = tag)) :=
  funext fun e => by rw [Bool.eq_iff_iff, decide_eq_true_iff, Bool.not_eq_true', ← DuckEntry.hasKey_iff, Bool.eq_false_iff]

/-- The entry of a key leaves the list: there is at most one (R103). -/
theorem DuckLaw.eraseP_hasKey (h : DuckLaw l) (source tag : Nat) :
    l.eraseP (DuckEntry.hasKey source tag) = l.filter fun e => decide (¬(e.source = source ∧ e.tag = tag)) := by
  rw [eraseP_eq_filter, DuckEntry.not_hasKey_eq_decide]
  refine h.keys.imp fun hne hkeys => hne ?_
  obtain ⟨⟨hs, ht⟩, ⟨hs', ht'⟩⟩ := hkeys.imp (DuckEntry.hasKey_iff _ _ _).mp (DuckEntry.hasKey_iff _ _ _).mp
  exact ⟨hs.trans hs'.symm, ht.trans ht'.symm⟩

/-- A change of the entry of a key, whose test is decided by its source and its tag. -/
theorem map_of_hasKey (f : DuckEntry → DuckEntry) :
    (l.map fun e => if e.hasKey source tag = true then f e else e) =
      l.map fun e => if e.source = source ∧ e.tag = tag then f e else e :=
  List.map_congr_left fun e _ => if_congr (DuckEntry.hasKey_iff source tag e) rfl rfl

theorem any_hasKey_iff : l.any (DuckEntry.hasKey source tag) = true ↔ ∃ e ∈ l, e.source = source ∧ e.tag = tag := by
  simp only [List.any_eq_true, DuckEntry.hasKey_iff]

/-! ## A new entry (R105) -/

theorem leastDepth_le (h : e ∈ l) : leastDepth l ≤ e.depth := by
  induction l with
  | nil => cases h
  | cons x rest ih =>
    cases rest with
    | nil => exact Nat.le_of_eq (congrArg DuckEntry.depth (List.mem_singleton.mp h).symm)
    | cons y rest =>
      change min x.depth (leastDepth (y :: rest)) ≤ e.depth
      rcases List.mem_cons.mp h with rfl | hmem
      · exact Nat.min_le_left _ _
      · exact Nat.le_trans (Nat.min_le_right _ _) (ih hmem)

/-- The smallest depth is that of an entry with no smaller one before or behind it. -/
theorem leastDepth_eq {a b : List DuckEntry} (ha : ∀ y ∈ a, e.depth < y.depth) (hb : ∀ y ∈ b, e.depth ≤ y.depth) :
    leastDepth (a ++ e :: b) = e.depth := by
  obtain ⟨x, hx, hdepth⟩ := exists_depth_eq_leastDepth (l := a ++ e :: b) (by simp)
  refine Nat.le_antisymm (leastDepth_le (by simp)) (hdepth ▸ ?_)
  rcases List.mem_append.mp hx with hmem | hmem
  · exact Nat.le_of_lt (ha x hmem)
  · rcases List.mem_cons.mp hmem with rfl | hmem
    · exact Nat.le_refl _
    · exact hb x hmem

theorem addDuck_of_room (h : l.length < Config.duckSize) (e : DuckEntry) : addDuck l e = (l ++ [e], false) := if_pos h

/-- An entry that no entry of a full list is shallower than is not added. -/
theorem addDuck_of_full_of_le (h : l.length = Config.duckSize) (hd : ∀ x ∈ l, e.depth ≤ x.depth) : addDuck l e = (l, true) := by
  obtain ⟨x, hx, hdepth⟩ := exists_depth_eq_leastDepth (l := l) (List.ne_nil_of_length_eq_add_one h)
  unfold addDuck
  rw [if_neg h.not_lt, if_neg (Nat.not_lt_of_ge (hdepth ▸ hd x hx))]

/-- In a full list a deeper entry takes the place of the earliest of the smallest depth. -/
theorem addDuck_of_full_of_lt {x : DuckEntry} {a b : List DuckEntry} (h : (a ++ x :: b).length = Config.duckSize) (hd : x.depth < e.depth)
    (ha : ∀ y ∈ a, x.depth < y.depth) (hb : ∀ y ∈ b, x.depth ≤ y.depth) : addDuck (a ++ x :: b) e = (a ++ b ++ [e], true) := by
  have hbefore : ∀ y ∈ a, ¬(y.depth == x.depth) = true := fun y hy => by simpa using Nat.ne_of_gt (ha y hy)
  unfold addDuck
  rw [if_neg h.not_lt, leastDepth_eq ha hb, if_pos hd, List.eraseP_append_right _ hbefore,
    List.eraseP_cons_of_pos (p := fun y : DuckEntry => y.depth == x.depth) (beq_self_eq_true _)]

/-- An entry that meets a full list loses a duck, its own or another (R105). -/
theorem addDuck_of_full (h : l.length = Config.duckSize) (e : DuckEntry) : (addDuck l e).2 = true := by
  unfold addDuck
  rw [if_neg h.not_lt]
  split <;> rfl

/-! ## START, END and HOLD at the list (R104, R106, R107) -/

theorem State.duckStart_of_empty (hlive : s.ducksLive) (depth hold : Nat) :
    s.duckStart source tag 0 depth hold = { s with ducks := s.ducks.eraseP (DuckEntry.hasKey source tag) } := by
  unfold State.duckStart
  rw [hlive.liveDucks]
  rfl

theorem State.duckStart_of_known {emit : ClassSet} (hlive : s.ducksLive) (hemit : emit ≠ 0) (depth hold : Nat)
    (hkey : ∃ e ∈ s.ducks, e.source = source ∧ e.tag = tag) :
    s.duckStart source tag emit depth hold =
      { s with
        ducks := s.ducks.map fun e =>
          if e.source = source ∧ e.tag = tag then { e with classes := emit, depth := depth, remaining := holdTaken hold }
          else e } := by
  unfold State.duckStart
  dsimp only
  rw [hlive.liveDucks, if_neg hemit, if_pos (any_hasKey_iff.mpr hkey), map_of_hasKey]

/-- A START of a new key meets the list as `addDuck` says. -/
theorem State.duckStart_of_new {emit : ClassSet} (hlive : s.ducksLive) (hemit : emit ≠ 0) (depth hold : Nat)
    (hkey : ∀ e ∈ s.ducks, ¬(e.source = source ∧ e.tag = tag)) :
    s.duckStart source tag emit depth hold =
      let r := addDuck s.ducks { source := source, tag := tag, classes := emit, depth := depth, remaining := holdTaken hold }
      { s with ducks := r.1 }.latchIf r.2 .duckFull := by
  have hany : ¬s.ducks.any (DuckEntry.hasKey source tag) = true := fun h => by
    obtain ⟨e, he, hsame⟩ := any_hasKey_iff.mp h
    exact hkey e he hsame
  unfold State.duckStart
  dsimp only
  rw [hlive.liveDucks, if_neg hemit, if_neg hany]

theorem State.duckStart_of_room {emit : ClassSet} (hlive : s.ducksLive) (hemit : emit ≠ 0) (depth hold : Nat)
    (hkey : ∀ e ∈ s.ducks, ¬(e.source = source ∧ e.tag = tag)) (hroom : s.ducks.length < Config.duckSize) :
    s.duckStart source tag emit depth hold =
      { s with
        ducks := s.ducks ++ [{ source := source, tag := tag, classes := emit, depth := depth, remaining := holdTaken hold }] } := by
  rw [State.duckStart_of_new hlive hemit depth hold hkey, addDuck_of_room hroom]
  rfl

/-- A START of a new key that meets a full list latches DUCK_FULL, added or not (R105). -/
theorem State.duckStart_of_full {emit : ClassSet} (hlive : s.ducksLive) (hemit : emit ≠ 0) (depth hold : Nat)
    (hkey : ∀ e ∈ s.ducks, ¬(e.source = source ∧ e.tag = tag)) (hfull : s.ducks.length = Config.duckSize) :
    s.duckStart source tag emit depth hold =
      State.latch
        { s with
          ducks := (addDuck s.ducks
            { source := source, tag := tag, classes := emit, depth := depth, remaining := holdTaken hold }).1 }
        .duckFull := by
  rw [State.duckStart_of_new hlive hemit depth hold hkey]
  dsimp only
  rw [addDuck_of_full hfull]
  rfl

/-- Only a new entry that meets a full list latches a flag (R105). -/
theorem State.duckStart_flags {emit : ClassSet} (hlive : s.ducksLive) (depth hold : Nat)
    (h : emit = 0 ∨ (∃ e ∈ s.ducks, e.source = source ∧ e.tag = tag) ∨ s.ducks.length < Config.duckSize) :
    (s.duckStart source tag emit depth hold).flags = s.flags := by
  by_cases hemit : emit = 0
  · rw [hemit, State.duckStart_of_empty hlive]
  · by_cases hkey : ∃ e ∈ s.ducks, e.source = source ∧ e.tag = tag
    · rw [State.duckStart_of_known hlive hemit depth hold hkey]
    · have hroom := (h.resolve_left hemit).resolve_left hkey
      rw [State.duckStart_of_room hlive hemit depth hold (fun e he hsame => hkey ⟨e, he, hsame⟩) hroom]

theorem State.duckHold_of_live (hlive : s.ducksLive) (hold : Nat) :
    s.duckHold source tag hold =
      { s with ducks := s.ducks.map fun e => if e.source = source ∧ e.tag = tag then { e with remaining := max hold 1 } else e } := by
  unfold State.duckHold
  rw [hlive.liveDucks, map_of_hasKey]
  rfl

theorem State.duckEnd_of_live (hlive : s.ducksLive) (hlaw : DuckLaw s.ducks) :
    s.duckEnd source tag = { s with ducks := s.ducks.filter fun e => decide (¬(e.source = source ∧ e.tag = tag)) } := by
  unfold State.duckEnd
  rw [hlive.liveDucks, hlaw.eraseP_hasKey]

/-! ## The frames -/

theorem Hears.exec_endFrame (h : Hears s src) (tag g : Byte) :
    exec (.endFrame src tag g) s = .next (s.counted.duckEnd src.toNat tag.toNat) :=
  congrArg Host.Outcome.next (h.completes (.endFrame tag g)).completeFrame

theorem Hears.exec_hold (h : Hears s src) (tag hold : Byte) :
    exec (.hold src tag hold) s = .next (s.counted.duckHold src.toNat tag.toNat hold.toNat) :=
  congrArg Host.Outcome.next (h.completes (.hold tag hold)).completeFrame

/-- Settles O53: END is `State.duckEnd` of the station that has counted the frame. -/
theorem endRemovesItsDuckEntry : Obligations.EndRemovesItsDuckEntry := by
  intro s src tag g h hlive hlaw
  rw [h.exec_endFrame, State.duckEnd_of_live (s := s.counted) hlive hlaw]
  rfl

/-- Settles O54: HOLD is `State.duckHold` of the station that has counted the frame. -/
theorem holdSetsItsDuckEntry : Obligations.HoldSetsItsDuckEntry := by
  intro s src tag hold h hlive
  rw [h.exec_hold, State.duckHold_of_live (s := s.counted) hlive]
  rfl

/-- A choke clears no flag (R77, R154). -/
theorem Eases.chokeGroup (h : Eases s t) (n : Nat) : Eases s (t.chokeGroup n) := by
  unfold State.chokeGroup
  split
  · refine h.visitServing (fun v u hu => ?_) _
    split
    · exact hu.releaseVoice _ _
    · exact hu
  · exact h

theorem State.chokeGroup_of_other {g : Byte} (h : ∀ i, NamesGroup g i → (s.cfg.groups.get i).mode ≠ .lastWins) :
    s.chokeGroup g.toNat = s := by
  refine if_neg fun hm => ?_
  unfold State.groupMode at hm
  split at hm
  next i hi => exact h i (groupPlace_eq_some.mp hi).symm hm
  · cases hm

/-- Settles O51: the choke keeps the list and clears no flag, so that each clause is one case of `State.duckStart`; a new entry that
meets a full list is `addDuck_of_full_of_le` or `addDuck_of_full_of_lt`. -/
theorem startMeetsTheDuckList : Obligations.StartMeetsTheDuckList := by
  intro s src g c tag emit depth hold h hlive hlaw key taken added
  have hlive' : s.counted.ducksLive := hlive
  have hducks : ∀ z : State, (z.chokeGroup g.toNat).ducks = z.ducks := fun z =>
    ((kept_stable z).chokeGroup _ (Kept.refl z)).ducks
  have heases : ∀ z : State, Eases z (z.chokeGroup g.toNat) := fun z => (Eases.refl z).chokeGroup _
  rw [h.exec_start]
  refine ⟨_, rfl, fun he => ?_, fun he hkey => ?_, fun he hkey hroom => ?_, fun he hkey hfull => ?_, fun hother => ?_⟩
  · rw [hducks, he, State.duckStart_of_empty hlive']
    exact hlaw.eraseP_hasKey _ _
  · rw [hducks, State.duckStart_of_known hlive' he _ _ hkey]
    rfl
  · rw [hducks, State.duckStart_of_room hlive' he _ _ hkey hroom]
    rfl
  · rw [State.duckStart_of_full hlive' he _ _ hkey hfull]
    refine ⟨(heases _).flag _ (State.flag_latch_self _ _), (heases _).newMark _ (State.newMark_latch_self _ _), fun hd => ?_,
      fun a x b hl hd ha hb => ?_⟩
    · rw [hducks]
      exact congrArg Prod.fst (addDuck_of_full_of_le hfull hd)
    · rw [hducks]
      change (addDuck s.ducks added).1 = _
      rw [hl, addDuck_of_full_of_lt (hl ▸ hfull) hd ha hb]
  · obtain ⟨l, f, heq⟩ := s.counted.duckStart_eq src.toNat tag.toNat emit depth.toNat hold.toNat
    have hflags := State.duckStart_flags (source := src.toNat) (tag := tag.toNat) (emit := emit) hlive' depth.toNat hold.toNat
    rw [heq] at hflags ⊢
    rw [State.chokeGroup_of_other (s := { s.counted with ducks := l, flags := f }) hother]
    exact ⟨rfl, hflags⟩

end Sys2Proof.Machine
end
section
/-! PROOF. The mix of a channel and the port frame it is sent in (MixSumsRoundsAndSaturates). -/

namespace Sys2Proof.Machine

set_option Elab.async false

/-! ## The sum (R113, R115) -/

theorem gain_le_full {e : Nat} (he : e ≤ 255) : gain e ≤ 32768 := gain_full ▸ gain_mono he

/-- The range of a sample (R7). -/
def sampleRange : Set Int := Set.Icc (-32768) 32767

/-- A voice's product (R113) is a sample times a gain of at most 1, or 0. -/
theorem Playing.product_bounds {p : Playing} {side : SampleFrame → Int} (o : OutPair) (m : Nat)
    (hside : ∀ f, p.frame = some f → side f ∈ sampleRange) (hlevel : p.level ≤ 255) :
    -32768 * 32768 ≤ p.product o m side ∧ p.product o m side ≤ 32767 * 32768 := by
  unfold Playing.product
  split
  · split
    next f hf =>
      obtain ⟨hlow, hhigh⟩ := hside f hf
      have hgain : (p.gainOn m : Int) ≤ 32768 := by
        have hcode : effectiveCode p.level p.duck m ≤ 255 := by
          unfold effectiveCode
          omega
        exact_mod_cast gain_le_full hcode
      have hleast := mul_le_mul_of_nonneg_right hlow (Int.natCast_nonneg (p.gainOn m))
      have hmost := mul_le_mul_of_nonneg_right hhigh (Int.natCast_nonneg (p.gainOn m))
      omega
    · decide
  · decide

/-- The sum of at most eight products fits 36 bits (R115). -/
theorem channelSum_bounds {ps : List Playing} {side : SampleFrame → Int} (o : OutPair) (m : Nat) (hlength : ps.length ≤ 8)
    (hside : ∀ p ∈ ps, ∀ f, p.frame = some f → side f ∈ sampleRange) (hlevel : ∀ p ∈ ps, p.level ≤ 255) :
    -2 ^ 33 ≤ channelSum ps o m side ∧ channelSum ps o m side ≤ 8 * 32767 * 32768 := by
  have hproduct : ∀ x ∈ ps.map fun p => p.product o m side, -32768 * 32768 ≤ x ∧ x ≤ 32767 * 32768 := by
    intro x hx
    obtain ⟨p, hp, rfl⟩ := List.mem_map.mp hx
    exact p.product_bounds o m (hside p hp) (hlevel p hp)
  have hlow := List.card_nsmul_le_sum _ _ fun x hx => (hproduct x hx).1
  have hhigh := List.sum_le_card_nsmul _ _ fun x hx => (hproduct x hx).2
  rw [List.length_map, nsmul_eq_mul] at hlow hhigh
  unfold channelSum
  omega

/-! ## Rounding and saturation (R116, R117) -/

theorem rounded_spec (sum : Int) : 32768 * rounded sum ≤ sum + 16384 ∧ sum + 16384 < 32768 * (rounded sum + 1) := by
  unfold rounded
  omega

theorem saturated_of_above {y : Int} (h : 32767 < y) : saturated y = 32767 := if_pos h

theorem saturated_of_below {y : Int} (h : y < -32768) : saturated y = -32768 :=
  (if_neg (by omega)).trans (if_pos h)

theorem saturated_of_sample {y : Int} (h : y ∈ sampleRange) : saturated y = y :=
  (if_neg (not_lt.mpr h.2)).trans (if_neg (not_lt.mpr h.1))

theorem clipped_of_ne {y : Int} (h : saturated y ≠ y) : clipped y = 1 := if_neg h

theorem clipped_of_sample {y : Int} (h : y ∈ sampleRange) : clipped y = 0 := if_pos (saturated_of_sample h)

/-! ## The serial audio port (R118) -/

theorem bitsOf_eq_map (n x : Nat) : bitsOf n x = (List.range n).map fun i => x.testBit (n - 1 - i) := by
  induction n with
  | zero => rfl
  | succ n ih =>
    rw [bitsOf, ih, List.range_succ_eq_map, List.map_cons, List.map_map]
    refine congrArg₂ List.cons rfl (List.map_congr_left fun i _ => ?_)
    exact congrArg x.testBit (by omega)

/-- Each channel's 32 bits are the sample's 16, most significant first, and zeros. -/
theorem channelBits_toInt (x : BitVec 16) :
    channelBits x.toInt = (List.range 32).map fun i => if i < 16 then x.getLsbD (15 - i) else false := by
  unfold channelBits
  rw [BitVec.ofInt_toInt, bitsOf_eq_map]
  refine List.map_congr_left fun i hi => ?_
  rw [List.mem_range] at hi
  rw [show 65536 = 2 ^ 16 from rfl, Nat.testBit_mul_two_pow]
  split
  next h =>
    rw [decide_eq_true (by omega), Bool.true_and, BitVec.testBit_toNat]
    exact congrArg x.getLsbD (by omega)
  next h => rw [decide_eq_false (by omega), Bool.false_and]

/-- The bits of one channel stand beside a word clock that does not change. -/
theorem channelBits_zip_clock (x : BitVec 16) (clock : Bool) :
    (channelBits x.toInt).zip (List.replicate 32 clock) =
      (List.range 32).map fun i => (if i < 16 then x.getLsbD (15 - i) else false, clock) := by
  have hclock : List.replicate 32 clock = (List.range 32).map fun _ => clock := by
    rw [List.map_const', List.length_range]
  rw [hclock, channelBits_toInt, List.zip_map']

theorem portLines_toInt (l r : BitVec 16) :
    portLines (l.toInt, r.toInt) = (List.range 64).map fun i =>
      (if i < 16 then l.getLsbD (15 - i) else if 32 ≤ i ∧ i < 48 then r.getLsbD (47 - i) else false, decide (32 ≤ i)) := by
  have hlength : (channelBits l.toInt).length = (List.replicate 32 false).length := by
    rw [channelBits_toInt, List.length_map, List.length_range, List.length_replicate]
  unfold portLines portBits wordClockBits
  rw [List.zip_append hlength, channelBits_zip_clock, channelBits_zip_clock, List.range_add (n := 32) (m := 32), List.map_append,
    List.map_map]
  refine congrArg₂ List.append (List.map_congr_left fun i hi => ?_) (List.map_congr_left fun i _ => ?_)
  · rw [List.mem_range] at hi
    rw [decide_eq_false (by omega), if_neg (c := 32 ≤ i ∧ i < 48) (by omega)]
  · have hsecond : (32 ≤ 32 + i ∧ 32 + i < 48) = (i < 16) := by
      rw [eq_iff_iff]
      omega
    dsimp only [Function.comp]
    rw [decide_eq_true (by omega), if_neg (c := 32 + i < 16) (by omega), if_congr (Iff.of_eq hsecond) rfl rfl]
    refine congrArg (·, true) (if_congr Iff.rfl (congrArg r.getLsbD (by omega)) rfl)

/-- Settles O22: each sum is at most eight products (`channelSum_bounds`), rounded and brought into the range of a sample, and the port
sends the bits of one channel after those of the other (`portLines_toInt`). -/
theorem mixSumsRoundsAndSaturates : Obligations.MixSumsRoundsAndSaturates := by
  refine ⟨fun ps o m hlength hframe hlevel => ?_, fun sum => ⟨rounded_spec sum, fun y => ⟨fun h => ?_, fun h => ?_, fun hl hh => ?_⟩⟩,
    portLines_toInt⟩
  · have hleft := channelSum_bounds (side := SampleFrame.left) o m hlength
      (fun p hp f hf => ⟨(hframe p hp f hf).1, (hframe p hp f hf).2.1⟩) hlevel
    have hright := channelSum_bounds (side := SampleFrame.right) o m hlength (fun p hp f hf => (hframe p hp f hf).2.2) hlevel
    exact ⟨hleft.1, hleft.2, hright⟩
  · have hs := saturated_of_above h
    exact ⟨hs, clipped_of_ne (by omega)⟩
  · have hs := saturated_of_below h
    exact ⟨hs, clipped_of_ne (by omega)⟩
  · exact ⟨saturated_of_sample ⟨hl, hh⟩, clipped_of_sample ⟨hl, hh⟩⟩

end Sys2Proof.Machine
end
section
/-! PROOF. A block boundary judges the output pairs (BlockBoundaryJudgesThePairs). -/

namespace Sys2Proof.Machine

set_option Elab.async false

variable {s : State} {p : Pair} {c : StationConfig} {f g : Flag}

/-! ## Latching where a condition holds (R154) -/

theorem State.newMark_latch_ne (h : f ≠ g) : (s.latch f).newMark g = s.newMark g := by
  simp [State.newMark, Flag.place_ne h]

theorem State.flag_latchIf (b : Bool) (f g : Flag) : (s.latchIf b f).flag g = (b && decide (f = g) || s.flag g) := by
  by_cases h : f = g <;> cases b <;> simp [State.latchIf, h]

theorem State.newMark_latchIf (b : Bool) (f g : Flag) : (s.latchIf b f).newMark g = (b && decide (f = g) || s.newMark g) := by
  by_cases h : f = g <;> cases b <;> simp [State.latchIf, h, State.newMark_latch_ne]

/-! ## What a block was (R120, R121, R124) -/

theorem Pair.isHot_iff : p.isHot c = true ↔ c.hot ≠ 0 ∧ c.hot ≤ p.peak := by simp [Pair.isHot]

theorem Pair.quiet_iff :
    p.quiet c = true ↔ c.silence ≠ 0 ∧ p.allNormal = true ∧ p.allSounding = true ∧ p.peak < c.silence := by
  simp [Pair.quiet, and_assoc]

theorem Pair.overloaded_iff : p.overloaded c = true ↔ c.overloadK ≠ 0 ∧ c.overloadK ≤ p.clips := by simp [Pair.overloaded]

/-! ## The counts of protection (R124, R126 to R128) -/

theorem Pair.countProtection_of_normal (h : p.prot = .normal) :
    p.countProtection c =
      { p with
        normalTime := min 5000 (p.normalTime + 1)
        run := if c.overloadK ≠ 0 ∧ c.overloadK ≤ p.clips then p.run + 1 else 0 } := by
  simp only [Pair.countProtection, h, Pair.overloaded_iff, Config.forgiveTime]

theorem Pair.countProtection_of_tripped (h : p.prot = .tripped) :
    p.countProtection c = { p with wait := if c.recovery = .off then p.wait else p.wait + 1 } := by
  have hcount : p.countProtection c = if c.recovery = .off then p else { p with wait := p.wait + 1 } := by
    cases p
    cases h
    rfl
  rw [hcount]
  split <;> rfl

theorem Pair.countProtection_of_locked (h : p.prot = .locked) : p.countProtection c = p := by
  cases p
  cases h
  rfl

/-- The counts of protection are the wait, the run and the NORMAL time. -/
theorem Pair.countProtection_eq (p : Pair) (c : StationConfig) :
    ∃ w r n, p.countProtection c = { p with wait := w, run := r, normalTime := n } := by
  unfold Pair.countProtection
  repeat' split
  all_goals exact ⟨_, _, _, rfl⟩

/-! ## A pair at the boundary (R119, R121) -/

theorem Pair.boundary_deadAir (p : Pair) (c : StationConfig) (m : Bool) :
    (p.boundary c m).deadAir =
      if m = true ∧ c.silence ≠ 0 ∧ p.allNormal = true ∧ p.allSounding = true ∧ p.peak < c.silence then p.deadAir + 1 else 0 :=
  if_congr ((Bool.and_eq_true_iff).trans (and_congr_right fun _ => Pair.quiet_iff)) rfl rfl

/-- Beside the figures of a block, the boundary counts as protection does. -/
theorem Pair.boundary_counts {q : Pair} (m : Bool) (h : p.countProtection c = q) :
    (p.boundary c m).wait = q.wait ∧ (p.boundary c m).run = q.run ∧ (p.boundary c m).normalTime = q.normalTime :=
  h ▸ ⟨rfl, rfl, rfl⟩

/-- The boundary leaves the protection state, the attempts and the port. -/
theorem Pair.boundary_frame (p : Pair) (c : StationConfig) (m : Bool) :
    (p.boundary c m).prot = p.prot ∧ (p.boundary c m).attempts = p.attempts ∧ (p.boundary c m).port = p.port ∧
      (p.boundary c m).portNext = p.portNext := by
  obtain ⟨w, r, n, h⟩ := p.countProtection_eq c
  unfold Pair.boundary
  rw [h]
  exact ⟨rfl, rfl, rfl, rfl⟩

/-! ## The boundary (R119, R120) -/

theorem State.judgeBlock_pair (s : State) (o : OutPair) : s.judgeBlock.pair o = (s.pair o).boundary s.cfg s.monitoring := by
  cases o <;> rfl

/-- HOT of both pairs is tested, and no other flag. -/
theorem State.judgeBlock_flag (s : State) (g : Flag) :
    s.judgeBlock.flag g =
      ((s.monitoring && s.floor.isHot s.cfg) && decide (hotFlag .floor = g) ||
        ((s.monitoring && s.pgm.isHot s.cfg) && decide (hotFlag .pgm = g) || s.flag g)) :=
  (State.flag_latchIf _ _ g).trans (congrArg _ (State.flag_latchIf _ _ g))

theorem State.judgeBlock_newMark (s : State) (g : Flag) :
    s.judgeBlock.newMark g =
      ((s.monitoring && s.floor.isHot s.cfg) && decide (hotFlag .floor = g) ||
        ((s.monitoring && s.pgm.isHot s.cfg) && decide (hotFlag .pgm = g) || s.newMark g)) :=
  (State.newMark_latchIf _ _ g).trans (congrArg _ (State.newMark_latchIf _ _ g))

theorem State.judgeBlock_hot (s : State) (o : OutPair) :
    s.judgeBlock.flag (hotFlag o) = (s.monitoring && (s.pair o).isHot s.cfg || s.flag (hotFlag o)) ∧
      s.judgeBlock.newMark (hotFlag o) = (s.monitoring && (s.pair o).isHot s.cfg || s.newMark (hotFlag o)) := by
  rw [State.judgeBlock_flag, State.judgeBlock_newMark]
  cases o <;> simp [hotFlag, State.pair]

theorem State.judgeBlock_otherFlag (s : State) (hpgm : g ≠ .hotPgm) (hfloor : g ≠ .hotFloor) :
    s.judgeBlock.flag g = s.flag g ∧ s.judgeBlock.newMark g = s.newMark g := by
  rw [State.judgeBlock_flag, State.judgeBlock_newMark]
  simp [hotFlag, hpgm.symm, hfloor.symm]

/-- Where nothing is due, OUT judges the block with the pairs, the flags and the settings as they were. -/
theorem State.blockBoundary_judges (levels : Byte) (hm : s.mode ≠ .loading) (hs : s.settled) :
    ∃ b l r, s.blockBoundary levels = { s with tmb := b, lines := l, remote := r }.judgeBlock := by
  obtain ⟨L, he, -⟩ := State.sampleLines_eq (s := { s with tmb := s.tmb.countBlock }) levels
  refine ⟨s.tmb.countBlock, L.map s.ageLine, s.remote.map fun r => { r with age := r.age + 1 }, ?_⟩
  unfold State.blockBoundary
  rw [hs]
  dsimp only
  rw [if_neg (by simpa [State.isLoading] using hm), he]
  rfl

/-- Settles O26: the boundary is OUT's part on a station that differs in lines, remote queue and timebase alone
(`State.blockBoundary_judges`), and each clause is a lemma about `Pair.boundary` or `State.judgeBlock`. -/
theorem blockBoundaryJudgesThePairs : Obligations.BlockBoundaryJudgesThePairs := by
  intro levels s hm hdue hs
  obtain ⟨b, l, r, he⟩ := State.blockBoundary_judges levels hm hs
  refine ⟨_, congrArg Host.Outcome.next ((if_pos (s.tmb.blockDue_iff.mpr hdue)).trans he), fun o => ?_,
    fun f hpgm hfloor => State.judgeBlock_otherFlag _ hpgm hfloor⟩
  intro p u
  obtain ⟨hflag, hmark⟩ := State.judgeBlock_hot { s with tmb := b, lines := l, remote := r } o
  have hp : State.pair { s with tmb := b, lines := l, remote := r } o = p := by cases o <;> rfl
  have hu : u = p.boundary s.cfg s.monitoring := (State.judgeBlock_pair _ o).trans (by rw [hp])
  rw [hp] at hflag hmark
  clear_value p u
  subst hu
  refine ⟨fun hmon h0 hle => ?_, fun hnot => ?_, fun hmon h0 hn hso hlt => ?_, fun hnot => ?_, fun hprot => ?_, fun hprot => ?_,
    fun hprot => ?_, rfl, rfl, rfl, rfl, p.boundary_frame _ _⟩
  · have hhot : (s.monitoring && p.isHot s.cfg) = true := Bool.and_eq_true_iff.mpr ⟨hmon, Pair.isHot_iff.mpr ⟨h0, hle⟩⟩
    rw [hflag, hmark, hhot]
    exact ⟨rfl, rfl⟩
  · have hhot : (s.monitoring && p.isHot s.cfg) = false := by
      rw [Bool.eq_false_iff, ne_eq, Bool.and_eq_true_iff, Pair.isHot_iff]
      grind
    rw [hflag, hmark, hhot]
    exact ⟨rfl, rfl⟩
  · rw [Pair.boundary_deadAir, if_pos ⟨hmon, h0, hn, hso, hlt⟩]
  · rw [Pair.boundary_deadAir, if_neg (by grind)]
  · obtain ⟨hwait, hrun, htime⟩ := Pair.boundary_counts s.monitoring (Pair.countProtection_of_normal hprot)
    exact ⟨htime, hwait, hrun⟩
  · obtain ⟨hwait, hrun, htime⟩ := Pair.boundary_counts s.monitoring (Pair.countProtection_of_tripped hprot)
    exact ⟨hwait, hrun, htime⟩
  · obtain ⟨hwait, hrun, htime⟩ := Pair.boundary_counts s.monitoring (Pair.countProtection_of_locked hprot)
    exact ⟨hwait, htime, hrun⟩

end Sys2Proof.Machine
end
section
/-! PROOF. Overload trips and recoveries (TripsAndRecoveries). -/

namespace Sys2Proof.Machine

set_option Elab.async false

variable {s : State} {o : OutPair} {p : Pair} {c : StationConfig}

/-! ## The trip (R124, R125, R127) -/

theorem Pair.tripDue_iff : p.tripDue = true ↔ p.prot = .normal ∧ 16 ≤ p.run := by
  rw [Pair.tripDue, Bool.and_eq_true, decide_eq_true_iff, decide_eq_true_iff]
  exact Iff.rfl

theorem Pair.exhausted_iff : p.exhausted c = true ↔ (c.recovery = .short ∨ c.recovery = .long) ∧ 3 ≤ p.attempts := by
  rw [Pair.exhausted, Bool.and_eq_true, Bool.or_eq_true, decide_eq_true_iff, decide_eq_true_iff, decide_eq_true_iff]
  exact Iff.rfl

theorem Pair.forgive_of_normal (h : p.prot = .normal) :
    p.forgive = { p with attempts := if 5000 ≤ p.normalTime then 0 else p.attempts } := by
  unfold Pair.forgive
  split
  next hf => rw [if_pos ((Pair.forgiven_iff p).mp hf).2]
  next hf => rw [if_neg fun ht => hf ((Pair.forgiven_iff p).mpr ⟨h, ht⟩)]

theorem State.tripPair_of_due (hn : (s.pair o).prot = .normal) (hr : 16 ≤ (s.pair o).run) :
    s.tripPair o = (s.setPair o ((s.pair o).forgive.trip s.cfg)).latch .trip := if_pos (Pair.tripDue_iff.mpr ⟨hn, hr⟩)

theorem State.tripPair_of_not_due (h : (s.pair o).prot ≠ .normal ∨ (s.pair o).run < 16) : s.tripPair o = s := by
  refine if_neg fun hd => ?_
  obtain ⟨hn, hr⟩ := Pair.tripDue_iff.mp hd
  exact h.elim (absurd hn) (Nat.not_lt_of_le hr)

/-! ## The return to NORMAL (R126) -/

theorem Pair.waitOver_iff : p.waitOver c = true ↔ p.prot = .tripped ∧ ∃ n, c.recovery.wait = some n ∧ n ≤ p.wait := by
  unfold Pair.waitOver
  split
  next n hn => simp [hn]
  next hn => simp [hn]

theorem State.recoverPair_of_over {n : Nat} (ht : (s.pair o).prot = .tripped) (hn : s.cfg.recovery.wait = some n)
    (hw : n ≤ (s.pair o).wait) : s.recoverPair o = s.setPair o ((s.pair o).recover s.cfg) :=
  if_pos (Pair.waitOver_iff.mpr ⟨ht, n, hn, hw⟩)

theorem State.recoverPair_of_not_over
    (h : (s.pair o).prot = .tripped → ∀ n, s.cfg.recovery.wait = some n → (s.pair o).wait < n) : s.recoverPair o = s := by
  refine if_neg fun ho => ?_
  obtain ⟨ht, n, hn, hw⟩ := Pair.waitOver_iff.mp ho
  exact Nat.not_lt_of_le hw (h ht n hn)

theorem Pair.recover_of_counted (h : c.recovery ≠ .endless) :
    p.recover c = { p with prot := .normal, run := 0, wait := 0, normalTime := 0, attempts := p.attempts + 1 } := by
  unfold Pair.recover
  rw [if_neg h]

theorem Pair.recover_of_endless (h : c.recovery = .endless) :
    p.recover c = { p with prot := .normal, run := 0, wait := 0, normalTime := 0 } := by
  unfold Pair.recover
  rw [if_pos h]

/-- Settles O38: the trip by whether it is due, with the attempts that `Pair.forgive_of_normal` leaves; the return by the length of the
wait under each recovery mode. -/
theorem tripsAndRecoveries : Obligations.TripsAndRecoveries := by
  intro s o p used
  refine ⟨fun hn hr => ?_, fun h => congrArg Host.Outcome.next (State.tripPair_of_not_due h), fun ht => ⟨fun h => ?_, fun he hw => ?_,
    fun h => ?_⟩, fun ht => congrArg Host.Outcome.next (State.recoverPair_of_not_over fun h => absurd h ht)⟩
  · refine congrArg Host.Outcome.next ((State.tripPair_of_due hn hr).trans ?_)
    rw [Pair.forgive_of_normal hn, Pair.trip]
    simp only [Pair.exhausted_iff]
    rfl
  · refine congrArg Host.Outcome.next ?_
    rcases h with ⟨hm, hw⟩ | ⟨hm, hw⟩ <;>
      rw [State.recoverPair_of_over ht (congrArg Recovery.wait hm) hw, Pair.recover_of_counted (by rw [hm]; nofun)]
  · refine congrArg Host.Outcome.next ?_
    rw [State.recoverPair_of_over ht (congrArg Recovery.wait he) hw, Pair.recover_of_endless he]
  · refine congrArg Host.Outcome.next (State.recoverPair_of_not_over fun _ n hn => ?_)
    rcases h with hm | ⟨hm, hw⟩ | ⟨hm | hm, hw⟩
    all_goals
      rw [hm] at hn
      cases hn
    all_goals exact hw

end Sys2Proof.Machine
end

section
/-! PROOF. A mute station in SILENT stays mute (SilentStationStaysMute). Serving, releasing and freeing keep it mute (`mute_stable`); what
is left is that nothing it has to send is begun, and that no frame and no boundary takes it out of SILENT (R132, R169). -/

namespace Sys2Proof.Machine

set_option Elab.async false

variable {s t : State}

/-! ## A mute station has no frame of its own -/

/-- A change of neither the mode, the queue nor the wire. -/
theorem Mute.congr (h : Mute s) (mode : t.mode = s.mode := by rfl) (queue : t.queue = s.queue := by rfl)
    (tx : t.tx = s.tx := by rfl) : Mute t :=
  ⟨mode.trans h.mode, queue.trans h.queue, tx.trans h.tx⟩

theorem Mute.withTmb (h : Mute s) (b : Timebase) : Mute { s with tmb := b } := h.congr

theorem Mute.withDucks (h : Mute s) (l : List DuckEntry) : Mute { s with ducks := l } := h.congr

theorem Mute.flying (h : Mute s) : s.flying = none := by
  unfold State.flying
  rw [h.queue]
  rfl

theorem Mute.dropOver (h : Mute s) : s.dropOver = s := by
  unfold State.dropOver State.dropPending
  rw [h.queue]
  rfl

/-- No frame of its own completes where none is in flight (R141; log entry 12). -/
theorem Mute.completeOwn (h : Mute s) (heard : Bool) (p : Frame → Bool) : Mute (s.completeOwn heard p) := by
  unfold State.completeOwn
  rw [h.flying]
  exact h

theorem Mute.nextToBegin (h : Mute s) : s.nextToBegin = none := by
  unfold State.nextToBegin
  rw [h.queue]
  rfl

/-- LDR offers a join STATUS in JOINING only (R165). -/
theorem Mute.offerJoin (h : Mute s) : s.offerJoin = s := by
  unfold State.offerJoin
  rw [h.mode]

/-- The join wait ends in JOINING only (R165). -/
theorem Mute.endJoinWait (h : Mute s) : s.endJoinWait = s := by
  unfold State.endJoinWait State.joinReady
  rw [h.mode]
  rfl

/-! ## The instant and the boundaries -/

theorem Mute.setPair (h : Mute s) (o : OutPair) (p : Pair) : Mute (s.setPair o p) := by
  cases o <;> exact h.congr

theorem Mute.latchDeadAir (h : Mute s) (o : OutPair) : Mute (s.latchDeadAir o) :=
  mute_stable.latchDeadAir (fun o p h => h.setPair o p) o h

theorem Mute.tripPair (h : Mute s) (o : OutPair) : Mute (s.tripPair o) := mute_stable.tripPair (fun o p h => h.setPair o p) o h

theorem Mute.recoverPair (h : Mute s) (o : OutPair) : Mute (s.recoverPair o) := by
  unfold State.recoverPair
  split
  · exact h.setPair o _
  · exact h

/-- What the boundaries made due leaves the station mute: its join wait is over. -/
theorem Mute.settle (h : Mute s) : Mute s.settle := by
  have h1 := inOrder_keeps (fun n _ ht => mute_stable.takeLineEvent n ht) slots h
  have h2 := inOrder_keeps (fun v _ ht => mute_stable.endData v ht) slots h1
  have h3 := inOrder_keeps (fun n t ht => mute_stable.expireLine (fun r => t.ripe r.age) n ht) slots h2
  have h4 := inOrder_keeps (fun i t ht => mute_stable.expireRemote (fun r => t.ripe r.age) i ht) [3, 2, 1, 0] h3
  have hpair := fun o {t : State} (ht : Mute t) => mute_stable.settlePair (fun o p h => h.setPair o p) o ht
  have h5 := hpair .floor (hpair .pgm h4)
  have h6 := inOrder_keeps (fun n _ ht => mute_stable.endPenalty n ht) slots (h5.endJoinWait.symm ▸ h5)
  exact h6.withDucks _

/-- No frame is in the queue whose error flag could end at the instant. -/
theorem Mute.flagMayEnd (h : Mute s) : s.flagMayEnd = s := by
  unfold State.flagMayEnd State.dropPending
  rw [h.queue]
  rfl

theorem Mute.mixInstant (h : Mute s) : Mute s.mixInstant := by
  obtain ⟨g, e, -⟩ := s.mixInstant_eq
  rw [e]
  exact h.congr

theorem Mute.sampleInstant (h : Mute s) : Mute s.sampleInstant := by
  have h1 := h.settle.withTmb s.settle.tmb.countSample
  unfold State.sampleInstant
  dsimp only
  split
  · exact h1.congr
  · rw [h1.flagMayEnd]
    exact mute_stable.freeRunOut (mute_stable.arbitrate h1.mixInstant)

theorem Mute.ageRequests (h : Mute s) : Mute s.ageRequests := h.congr

theorem Mute.judgeBlock (h : Mute s) : Mute s.judgeBlock := by
  obtain ⟨p, q, g, e⟩ := s.judgeBlock_eq
  rw [e]
  exact h.congr

theorem Mute.blockBoundary (h : Mute s) (levels : Byte) : Mute (s.blockBoundary levels) := by
  have h1 := h.settle.withTmb s.settle.tmb.countBlock
  unfold State.blockBoundary
  dsimp only
  split
  · exact h1
  · exact (mute_stable.sampleLines levels h1).ageRequests.judgeBlock

theorem Mute.countPenalties (h : Mute s) : Mute s.countPenalties := h.congr

theorem Mute.countDucks (h : Mute s) : Mute s.countDucks := h.withDucks _

theorem Mute.holdUnitBoundary (h : Mute s) : Mute s.holdUnitBoundary := by
  have h1 := h.settle.withTmb { s.settle.tmb with blocks := 0 }
  unfold State.holdUnitBoundary
  dsimp only
  split
  · exact h1
  · exact (mute_stable.countHolds h1.countPenalties).countDucks

/-! ## Frames of other stations (R142, R143, R169) -/

theorem Mute.allStopOutput (h : Mute s) : Mute s.allStopOutput := h.congr

theorem Mute.stopFrame (h : Mute s) (target cue : Byte) (fade : BitVec 3) : Mute (s.stopFrame target cue fade) := by
  have htrips : Mute s.takeTrips := (h.tripPair .pgm).tripPair .floor
  unfold State.stopFrame
  split
  · split
    · exact mute_stable.visit (fun p _ ht => mute_stable.allStopPart _ p ht) _ htrips.allStopOutput
    · exact mute_stable.stopCue _ _ h
  · exact h

theorem Mute.fireFrame (h : Mute s) (src : Nat) (target cue : Byte) : Mute (s.fireFrame src target cue) := by
  unfold State.fireFrame State.fireCue
  split
  · split
    · exact h
    · split
      · exact mute_stable.runPass h.congr
      · exact mute_stable.latch _ h
  · exact h

/-- An ASK is answered in JOINING and RUN only (R152). -/
theorem Mute.askFrame (h : Mute s) (target : Byte) : Mute (s.askFrame target) := by
  unfold State.askFrame State.isRun
  rw [h.mode]
  split
  next ha => exact absurd ha (by simp)
  · exact h

theorem Mute.duckStart (h : Mute s) (src tag : Nat) (emit : ClassSet) (depth hold : Nat) :
    Mute (s.duckStart src tag emit depth hold) := by
  obtain ⟨l, g, he⟩ := s.duckStart_eq src tag emit depth hold
  rw [he]
  exact h.congr

theorem Mute.applyForeign (h : Mute s) (src : Nat) (f : Frame) : Mute (s.applyForeign src f) := by
  cases f
  case claim => exact mute_stable.foreignClaim _ _ h
  case held => exact mute_stable.foreignHeld _ _ h
  case release => exact mute_stable.releaseGroup _ h
  case start => exact mute_stable.chokeGroup _ (h.duckStart _ _ _ _ _)
  case endFrame | hold => exact h.congr
  case stop => exact h.stopFrame _ _ _
  case fire => exact h.fireFrame _ _ _
  case arm => exact mute_stable.armGroups _ h
  case disarm => exact mute_stable.disarmGroups _ h
  case ask => exact h.askFrame _
  case status => exact h

theorem Mute.receiveFrame (h : Mute s) (source : BitVec 5) (f : Option Frame) : Mute (s.receiveFrame source f) := by
  have hc : Mute s.countFrame := ⟨h.mode, h.queue, rfl⟩
  unfold State.receiveFrame
  split
  · exact h
  · split
    · rwa [State.duplicateFrame_of_silent hc.mode]
    · split
      · exact hc
      · split
        · exact hc
        · exact hc.applyForeign _ _

theorem Mute.completeFrame (h : Mute s) (sender : Sender) (f : Frame) : Mute (s.completeFrame sender f) := by
  unfold State.completeFrame
  split
  · exact h.completeOwn _ _
  · exact h.receiveFrame _ _

/-! ## The commands -/

theorem Mute.execReadEnd (h : Mute s) {bytes : List Byte} (he : execReadEnd bytes s = .next t) : Mute t := by
  unfold Machine.execReadEnd at he
  split at he
  · cases he
    exact h
  · split at he
    · cases he
      exact h
    · split at he
      · cases he
        exact mute_stable.arbitrate h.congr
      · split at he
        · cases he
        · cases he
          apply mute_stable.arbitrate
          split
          · exact Mute.congr (mute_stable.testPrimed _ (mute_stable.setVoice _ _ h))
          · exact h.congr

/-- LDR has read the configuration and the directory (R160). -/
theorem Mute.loaderRead (h : Mute s) {u : State} {p : Prop} [Decidable p] {b : Bool} {r : Refusal} (hb : b = false)
    (he : (if p then .refused r else .next (if b then u else s) : Host.Outcome State Fault Refusal) = .next t) : Mute t := by
  subst hb
  split at he
  · cases he
  · cases he
    exact h

theorem Mute.execRxDiscard (h : Mute s) {bits : List Bool} (he : execRxDiscard bits s = .next t) : Mute t := by
  unfold Machine.execRxDiscard at he
  split at he
  · cases he
  · cases he
    split
    · exact guarded_keeps _ h.congr h
    · exact h
    · exact h

theorem Mute.receiveRaw (h : Mute s) {kind source : BitVec 5} {payload : List Byte}
    (he : receiveRaw kind source payload s = .next t) : Mute t := by
  unfold Machine.receiveRaw at he
  split at he
  · cases he
    exact h.receiveFrame _ _
  · cases he

/-- Every command but RESET leaves a mute station mute. -/
theorem Mute.exec (h : Mute s) {c : Instr} (hc : c ≠ .reset) (he : exec c s = .next t) : Mute t := by
  have hloaded : s.mode ≠ .loading := by rw [h.mode]; nofun
  cases c
  case reset => exact absurd rfl hc
  case configReadEnd => exact h.loaderRead (by rw [(not_awaits_of_mode hloaded).1]; rfl) he
  case directoryReadEnd => exact h.loaderRead (by rw [(not_awaits_of_mode hloaded).2]; rfl) he
  case sampleInstant => cases he; exact guarded_keeps _ h h.sampleInstant
  case endOfData v => cases he; exact mute_stable.endData v h
  case fadeStep | duckStep => cases he; split; exacts [h.congr, h]
  case blockBoundary levels => cases he; exact guarded_keeps _ (h.blockBoundary levels) h
  case playPress n | sendPress n => cases he; exact guarded_keeps _ h (mute_stable.pressEvent n h)
  case playRelease n | sendRelease n => cases he; exact guarded_keeps _ h (mute_stable.releaseEvent n h)
  case requestExpiry which =>
    cases he
    cases which with
    | line n => exact mute_stable.expireLine _ n h
    | remote i => exact mute_stable.expireRemote _ i.val h
  case deadAir o => cases he; exact h.latchDeadAir o
  case overloadTrip o => cases he; exact h.tripPair o
  case recoveryWaitEnd o => cases he; exact h.recoverPair o
  case attemptsForgiven o => cases he; exact h.setPair o _
  case joinWaitEnd => cases he; rwa [h.endJoinWait]
  case holdUnitBoundary => cases he; exact guarded_keeps _ h.holdUnitBoundary h
  case penaltyEnd n => cases he; exact mute_stable.endPenalty n h
  case duckEntryExpiry => cases he; exact h.congr
  case readEnd => exact h.execReadEnd he
  case busIdle =>
    have hidle : Mute { s.dropOver with rx := .idle, idleCount := Config.idleBits, tx := .idle } := by
      rw [h.dropOver]
      exact ⟨h.mode, h.queue, rfl⟩
    cases he
    refine guarded_keeps _ h ?_
    rwa [hidle.offerJoin]
  case frameBegin => cases he; rw [h.nextToBegin, ite_self]; exact h
  case arbitrationLost | bitError => cases he; rw [h.flying]; exact h
  case rxDiscard => exact h.execRxDiscard he
  case rxUnappliedFrame | rxOwnNumberFrame => exact h.receiveRaw he
  case rxStartBit => cases he; split; exacts [h.congr, h]
  case ownClaimComplete | ownHeldComplete | ownStartComplete | ownEndComplete | ownHoldComplete | ownStatusComplete =>
    cases he; exact h.completeOwn _ _
  case release | stop | allStop | fire | arm | disarm => cases he; exact h.completeFrame _ _
  case claim | held | start | endFrame | hold | ask | status | rxFreshStatusOwnNumber => cases he; exact h.receiveFrame _ _

/-- Settles O4: what serves, releases and frees keeps the station mute (`mute_stable`), and so does every command (`Mute.exec`). -/
theorem silentStationStaysMute : Obligations.SilentStationStaysMute := fun _ _ _ h hc he => h.exec hc he

end Sys2Proof.Machine
end

section
/-! PROOF. What a receiver makes of the bits that a sender drives (SentFrameIsReadBack): numbers and bytes are read back from their bits,
and content bits from among their sync bits (R133 to R136). -/

namespace Sys2Proof.Machine

set_option Elab.async false

/-! ## Numbers and bytes (R133, R172) -/

@[simp] theorem length_bitsOf (n x : Nat) : (bitsOf n x).length = n := by
  induction n with
  | zero => rfl
  | succ n ih => exact congrArg Nat.succ ih

/-- Reading on from a number already read. -/
theorem foldl_bitsOf (n x a : Nat) : (bitsOf n x).foldl (fun a b => a * 2 + b.toNat) a = a * 2 ^ n + x % 2 ^ n := by
  induction n generalizing a with
  | zero => simp [bitsOf, Nat.mod_one]
  | succ n ih =>
    have hbit : x % 2 ^ (n + 1) = x % 2 ^ n + 2 ^ n * (x.testBit n).toNat := by
      rw [Nat.mod_pow_succ, Nat.toNat_testBit]
    rw [bitsOf, List.foldl_cons, ih, hbit]
    ring

/-- A number is read back from its bits (R133). -/
theorem ofBits_bitsOf (n x : Nat) : ofBits (bitsOf n x) = x % 2 ^ n := by
  have h := foldl_bitsOf n x 0
  rwa [Nat.zero_mul, Nat.zero_add] at h

theorem ofNat_ofBits_bitsOf {n : Nat} (x : BitVec n) : BitVec.ofNat n (ofBits (bitsOf n x.toNat)) = x := by
  rw [ofBits_bitsOf, Nat.mod_eq_of_lt x.isLt, BitVec.ofNat_toNat, BitVec.setWidth_eq]

@[simp] theorem length_byteBits (l : List Byte) : (byteBits l).length = 8 * l.length := by
  induction l with
  | nil => rfl
  | cons b rest ih =>
    rw [byteBits, List.flatMap_cons, List.length_append, length_bitsOf, ← byteBits, ih, List.length_cons]
    omega

/-- Bytes are read back from their bits (R172). -/
theorem bytesOf_byteBits (l : List Byte) : bytesOf l.length (byteBits l) = l := by
  induction l with
  | nil => rfl
  | cons b rest ih =>
    have hlength : (bitsOf 8 b.toNat).length = 8 := length_bitsOf 8 _
    rw [byteBits, List.flatMap_cons, ← byteBits, List.length_cons, bytesOf, List.take_left' hlength, List.drop_left' hlength, ih,
      ofNat_ofBits_bitsOf]

/-! ## Content bits among their sync bits (R134) -/

/-- Content that begins `n` bits after a sync bit drives a bit for each of its own and one for each full eight. -/
theorem length_withSync {n : Nat} (hn : n < 8) (l : List Bool) : (withSync n l).length = l.length + (n + l.length) / 8 := by
  induction l generalizing n with
  | nil => rw [withSync, List.length_nil]; omega
  | cons b rest ih =>
    rw [withSync]
    split
    · rw [List.length_cons, List.length_cons, ih (by decide), List.length_cons]
      omega
    · rw [List.length_cons, ih (by omega), List.length_cons]
      omega

theorem withSync_append {n : Nat} (hn : n < 8) (a b : List Bool) :
    withSync n (a ++ b) = withSync n a ++ withSync ((n + a.length) % 8) b := by
  induction a generalizing n with
  | nil => rw [List.nil_append, withSync, List.nil_append, List.length_nil, Nat.add_zero, Nat.mod_eq_of_lt hn]
  | cons x a ih =>
    rw [List.cons_append, withSync, withSync, List.length_cons]
    split
    next h7 => rw [ih (by decide), List.cons_append, List.cons_append, h7, show (7 + (a.length + 1)) % 8 = (0 + a.length) % 8 by omega]
    · rw [ih (by omega), List.cons_append, show n + 1 + a.length = n + (a.length + 1) by omega]

theorem stripSync_plain {n : Nat} (h : n ≠ 7) (k : Nat) (b : Bool) (rest : List Bool) :
    stripSync n (k + 1) (b :: rest) = (stripSync (n + 1) k rest).cons b := by
  rw [stripSync.eq_def]
  exact if_neg h

theorem stripSync_sync (k : Nat) (b x : Bool) (rest : List Bool) :
    stripSync 7 (k + 1) (b :: x :: rest) = if x = !b then (stripSync 0 k rest).cons b else .wrongSync := rfl

theorem withSync_plain {n : Nat} (h : n ≠ 7) (b : Bool) (rest : List Bool) : withSync n (b :: rest) = b :: withSync (n + 1) rest :=
  if_neg h

theorem withSync_full (b : Bool) (rest : List Bool) : withSync 7 (b :: rest) = b :: (!b) :: withSync 0 rest := rfl

/-- The content is read back, whatever follows it. -/
theorem stripSync_withSync (n : Nat) (l more : List Bool) : stripSync n l.length (withSync n l ++ more) = .content l more := by
  induction l generalizing n with
  | nil => rfl
  | cons b rest ih =>
    by_cases h7 : n = 7
    · subst h7
      rw [withSync_full, List.cons_append, List.cons_append, List.length_cons, stripSync_sync, if_pos rfl, ih]
      rfl
    · rw [withSync_plain h7, List.cons_append, List.length_cons, stripSync_plain h7, ih]
      rfl

/-- Content cut short, its last sync bit counted, is no content yet. -/
theorem stripSync_take (n : Nat) (l : List Bool) {m : Nat} (hm : m < (withSync n l).length) :
    stripSync n l.length ((withSync n l).take m) = .short := by
  induction l generalizing n m with
  | nil => exact absurd hm (Nat.not_lt_zero m)
  | cons b rest ih =>
    by_cases h7 : n = 7
    · subst h7
      rw [withSync_full] at hm ⊢
      match m with
      | 0 | 1 => rfl
      | m + 2 =>
        rw [List.take_succ_cons, List.take_succ_cons, List.length_cons, stripSync_sync, if_pos rfl, ih 0 (by simpa using hm)]
        rfl
    · rw [withSync_plain h7] at hm ⊢
      match m with
      | 0 => rfl
      | m + 1 =>
        rw [List.take_succ_cons, List.length_cons, stripSync_plain h7, ih (n + 1) (by simpa using hm)]
        rfl

/-- A sync bit of the wrong level, at the place of any sync bit of the content, ends it. -/
theorem stripSync_wrong {n : Nat} (hn : n < 8) (l more : List Bool) {m : Nat} (hm : m < (withSync n l).length)
    (hsync : (m + n) % 9 = 8) :
    stripSync n l.length ((withSync n l).take m ++ (!(withSync n l).getD m true) :: more) = .wrongSync := by
  induction l generalizing n m with
  | nil => exact absurd hm (Nat.not_lt_zero m)
  | cons b rest ih =>
    by_cases h7 : n = 7
    · subst h7
      rw [withSync_full] at hm ⊢
      match m with
      | 0 => omega
      | 1 =>
        change stripSync 7 (rest.length + 1) (b :: (!!b) :: more) = .wrongSync
        rw [stripSync_sync, if_neg (by cases b <;> decide)]
      | m + 2 =>
        rw [List.take_succ_cons, List.take_succ_cons, List.length_cons, List.cons_append, List.cons_append, stripSync_sync,
          if_pos rfl, List.getD_cons_succ, List.getD_cons_succ, ih (by decide) (by simpa using hm) (by omega)]
        rfl
    · rw [withSync_plain h7] at hm ⊢
      match m with
      | 0 => omega
      | m + 1 =>
        rw [List.take_succ_cons, List.length_cons, List.cons_append, stripSync_plain h7, List.getD_cons_succ,
          ih (by omega) (by simpa using hm) (by omega)]
        rfl

/-! ## What the receiver makes of the levels it read (R133 to R136) -/

/-- The first eighteen content bits are read back and announce `len` payload bytes, no length value of 7. -/
def Opens (bits : List Bool) (len : Nat) : Prop :=
  ∃ opening rest, stripSync 0 18 bits = .content opening rest ∧ ofBits ((opening.drop 15).take 3) = len ∧ len ≠ 7

theorem receive_of_unopened {bits : List Bool} (h : stripSync 0 18 bits = .short) : receive bits = .unfinished := by
  unfold receive
  rw [h]

theorem receive_of_wrongOpening {bits : List Bool} (h : stripSync 0 18 bits = .wrongSync) : receive bits = .discarded false := by
  unfold receive
  rw [h]

theorem receive_of_seven {bits opening rest : List Bool} (h : stripSync 0 18 bits = .content opening rest)
    (hlen : ofBits ((opening.drop 15).take 3) = 7) : receive bits = .discarded false := by
  unfold receive
  rw [h]
  exact if_pos hlen

section
variable {bits content more : List Bool} {len : Nat} (h : Opens bits len)
include h

theorem Opens.receive_short (hs : stripSync 0 (34 + 8 * len) bits = .short) : receive bits = .unfinished := by
  obtain ⟨opening, rest, ho, rfl, h7⟩ := h
  unfold receive
  rw [ho]
  dsimp only
  rw [if_neg h7, hs]

theorem Opens.receive_wrong (hs : stripSync 0 (34 + 8 * len) bits = .wrongSync) : receive bits = .discarded false := by
  obtain ⟨opening, rest, ho, rfl, h7⟩ := h
  unfold receive
  rw [ho]
  dsimp only
  rw [if_neg h7, hs]

theorem Opens.receive_unended (hs : stripSync 0 (34 + 8 * len) bits = .content content more) (hm : more.length ≤ 1) :
    receive bits = .unfinished := by
  obtain ⟨opening, rest, ho, rfl, h7⟩ := h
  unfold receive
  rw [ho]
  dsimp only
  rw [if_neg h7, hs]
  match more, hm with
  | [], _ => rfl
  | [_], _ => rfl

/-- The end bit and the check value of a frame that has ended. -/
theorem Opens.receive_ended {head : List Bool} {c : BitVec 16} (hhead : head.length = 18 + 8 * len)
    (hs : stripSync 0 (34 + 8 * len) bits = .content (head ++ bitsOf 16 c.toNat) more) (echo last : Bool) (hm : more = [echo, last]) :
    receive bits =
      if last = true then if checkValue head = c then .accepted (RawFrame.ofHead len head) else .discarded false
      else .discarded (decide (checkValue head = c)) := by
  obtain ⟨opening, rest, ho, rfl, h7⟩ := h
  unfold receive
  rw [ho]
  dsimp only
  rw [if_neg h7, hs, hm]
  dsimp only
  rw [List.take_left' hhead, List.drop_left' hhead, ofNat_ofBits_bitsOf]
  cases last
  · rfl
  · simp

end

/-! ## The frame of a sender -/

namespace RawFrame
variable (f : RawFrame)

/-- The content bits of the arbitration field and the length. -/
def opening : List Bool :=
  bitsOf 5 f.kind.toNat ++ bitsOf 5 f.key.toNat ++ bitsOf 5 f.source.toNat ++ bitsOf 3 f.payload.length

/-- The content bits with a check value of any kind (R135). -/
def contentWith (c : BitVec 16) : List Bool := f.headBits ++ bitsOf 16 c.toNat

theorem contentBits_eq : f.contentBits = f.contentWith (checkValue f.headBits) := rfl

theorem headBits_eq : f.headBits = f.opening ++ byteBits f.payload := rfl

@[simp] theorem length_opening : f.opening.length = 18 := by simp [opening]

@[simp] theorem length_headBits : f.headBits.length = 18 + 8 * f.payload.length := by simp [headBits_eq]

theorem length_contentWith (c : BitVec 16) : (f.contentWith c).length = 34 + 8 * f.payload.length := by
  simp only [contentWith, List.length_append, length_headBits, length_bitsOf]
  omega

/-- The fields are read back from the content bits before the check value (R133). -/
theorem ofHead_headBits : ofHead f.payload.length f.headBits = f := by
  have hkind : f.headBits.take 5 = bitsOf 5 f.kind.toNat := by simp [headBits]
  have hkey : (f.headBits.drop 5).take 5 = bitsOf 5 f.key.toNat := by simp [headBits]
  have hsource : (f.headBits.drop 10).take 5 = bitsOf 5 f.source.toNat := by
    simp [headBits, List.drop_append, List.drop_eq_nil_of_le]
  have hpayload : f.headBits.drop 18 = byteBits f.payload := List.drop_left' f.length_opening
  unfold ofHead
  rw [hkind, hkey, hsource, hpayload, bytesOf_byteBits, ofNat_ofBits_bitsOf, ofNat_ofBits_bitsOf, ofNat_ofBits_bitsOf]

/-- What is sent begins with the opening, its sync bits among it (R134). -/
theorem sent_eq (c : BitVec 16) :
    withSync 0 (f.contentWith c) = withSync 0 f.opening ++ withSync 2 (byteBits f.payload ++ bitsOf 16 c.toNat) := by
  rw [contentWith, headBits_eq, List.append_assoc, withSync_append (by decide), length_opening]

theorem length_sent_opening : (withSync 0 f.opening).length = 20 := by
  rw [length_withSync (by decide), length_opening]

theorem length_sent (c : BitVec 16) : (withSync 0 (f.contentWith c)).length = 38 + 9 * f.payload.length := by
  rw [length_withSync (by decide), length_contentWith]
  omega

theorem opens_opening (h : f.payload.length ≤ 6) (more : List Bool) : Opens (withSync 0 f.opening ++ more) f.payload.length := by
  have hstrip := stripSync_withSync 0 f.opening more
  rw [length_opening] at hstrip
  refine ⟨_, _, hstrip, ?_, by omega⟩
  have hfield : (f.opening.drop 15).take 3 = bitsOf 3 f.payload.length := by
    simp [opening, List.drop_append, List.drop_eq_nil_of_le]
  rw [hfield, ofBits_bitsOf, Nat.mod_eq_of_lt (by omega)]

theorem opens_sent (h : f.payload.length ≤ 6) (c : BitVec 16) (more : List Bool) :
    Opens (withSync 0 (f.contentWith c) ++ more) f.payload.length := by
  rw [sent_eq, List.append_assoc]
  exact f.opens_opening h _

/-- Levels that are those of the sender up to some place after the opening. -/
theorem opens_take (h : f.payload.length ≤ 6) (c : BitVec 16) {m : Nat} (hm : 20 ≤ m) (more : List Bool) :
    Opens ((withSync 0 (f.contentWith c)).take m ++ more) f.payload.length := by
  rw [sent_eq, List.take_append, List.take_of_length_le (by rw [length_sent_opening]; exact hm), List.append_assoc]
  exact f.opens_opening h _

/-- A frame that has ended is accepted where the check value is that of its bits and the end bit recessive; with the end bit alone
dominant it is discarded, answered (R135, R136). -/
theorem receive_sent (h : f.payload.length ≤ 6) (c : BitVec 16) (echo last : Bool) :
    receive (withSync 0 (f.contentWith c) ++ [echo, last]) =
      if last = true then if checkValue f.headBits = c then .accepted f else .discarded false
      else .discarded (decide (checkValue f.headBits = c)) := by
  have hstrip := stripSync_withSync 0 (f.contentWith c) [echo, last]
  rw [length_contentWith] at hstrip
  rw [(f.opens_sent h c _).receive_ended f.length_headBits hstrip echo last rfl, ofHead_headBits]

/-- A sync bit of the wrong level discards the frame, in the opening or after it (R134). -/
theorem receive_wrongSync (h : f.payload.length ≤ 6) (c : BitVec 16) {m : Nat} (hm : m < (withSync 0 (f.contentWith c)).length)
    (hsync : m % 9 = 8) (more : List Bool) :
    receive ((withSync 0 (f.contentWith c)).take m ++ (!(withSync 0 (f.contentWith c)).getD m true) :: more) = .discarded false := by
  have hlength := f.length_sent_opening
  rcases Nat.lt_or_ge m 20 with hlt | hge
  · have hwrong := stripSync_wrong (n := 0) (by decide) f.opening more (m := m) (by rw [hlength]; exact hlt) hsync
    rw [length_opening] at hwrong
    rw [sent_eq, List.take_append_of_le_length (by rw [hlength]; exact Nat.le_of_lt hlt),
      List.getD_append _ _ _ _ (by rw [hlength]; exact hlt)]
    exact receive_of_wrongOpening hwrong
  · have hwrong := stripSync_wrong (n := 0) (by decide) (f.contentWith c) more hm hsync
    rw [length_contentWith] at hwrong
    exact (f.opens_take h c hge _).receive_wrong hwrong

/-- A frame cut short in its content is no frame yet. -/
theorem receive_cut (h : f.payload.length ≤ 6) (c : BitVec 16) {m : Nat} (hm : m < (withSync 0 (f.contentWith c)).length) :
    receive ((withSync 0 (f.contentWith c)).take m) = .unfinished := by
  have hlength := f.length_sent_opening
  rcases Nat.lt_or_ge m 20 with hlt | hge
  · have hshort := stripSync_take 0 f.opening (m := m) (by rw [hlength]; exact hlt)
    rw [length_opening] at hshort
    rw [sent_eq, List.take_append_of_le_length (by rw [hlength]; exact Nat.le_of_lt hlt)]
    exact receive_of_unopened hshort
  · have hshort := stripSync_take 0 (f.contentWith c) hm
    rw [length_contentWith] at hshort
    have hopens := f.opens_take h c hge []
    rw [List.append_nil] at hopens
    exact hopens.receive_short hshort

/-- A frame without its echo slot and end bit, or without its end bit alone, has not ended. -/
theorem receive_unended (h : f.payload.length ≤ 6) (c : BitVec 16) {more : List Bool} (hm : more.length ≤ 1) :
    receive (withSync 0 (f.contentWith c) ++ more) = .unfinished := by
  have hstrip := stripSync_withSync 0 (f.contentWith c) more
  rw [length_contentWith] at hstrip
  exact (f.opens_sent h c more).receive_unended hstrip hm

end RawFrame

/-- A length value of 7 discards the frame at once (R133). -/
theorem receive_length_seven {arbitration : List Bool} (h : arbitration.length = 15) (more : List Bool) :
    receive (withSync 0 (arbitration ++ [true, true, true]) ++ more) = .discarded false := by
  have hstrip := stripSync_withSync 0 (arbitration ++ [true, true, true]) more
  rw [List.length_append, h] at hstrip
  refine receive_of_seven hstrip ?_
  rw [List.drop_left' h]
  rfl

/-! ## Payloads (10.1) -/

theorem Frame.length_payload (f : Frame) : f.payload.length ≤ 6 := by cases f <;> simp [Frame.payload]

/-- A frame is read back from its payload. -/
theorem Frame.ofPayload_payload (f : Frame) : Frame.ofPayload f.kind f.payload = some f := by
  have hhalves : ∀ g : GroupSet, g.extractLsb' 8 8 ++ g.extractLsb' 0 8 = g := fun g => by
    rw [BitVec.extractLsb'_append_extractLsb'_eq_extractLsb' (by decide)]
    exact BitVec.extractLsb'_eq_self
  cases f
  case start g c t e d h => simp [Frame.kind, Frame.payload, Frame.ofPayload]
  case stop => simp [Frame.kind, Frame.payload, Frame.ofPayload]
  case arm g => exact congrArg (some ∘ Frame.arm) (hhalves g)
  case disarm g => exact congrArg (some ∘ Frame.disarm) (hhalves g)
  all_goals rfl

/-- Settles O60: the bits of a sent frame are taken apart by `RawFrame.receive_sent`, damage to them by `RawFrame.receive_wrongSync`,
`RawFrame.receive_cut`, `RawFrame.receive_unended` and `receive_length_seven`. -/
theorem sentFrameIsReadBack : Obligations.SentFrameIsReadBack := by
  refine ⟨fun f echo h => ?_, fun arbitration more harb => receive_length_seven harb more,
    fun f => ⟨f.length_payload, f.ofPayload_payload⟩⟩
  intro sent
  have hsent : sent.length = 38 + 9 * f.payload.length := f.length_sent _
  refine ⟨rfl, ?_, ?_, ?_, fun k more hk => ?_, fun c last hc => ?_, fun n hn => ?_⟩
  · change (false :: sent ++ [true, true]).length = _
    rw [List.length_append, List.length_cons, hsent]
    simp only [List.length_cons, List.length_nil]
    omega
  · exact (f.receive_sent h _ echo true).trans (by simp)
  · exact (f.receive_sent h _ echo false).trans (by simp)
  · exact f.receive_wrongSync h _ hk (by omega) more
  · refine (f.receive_sent h c echo last).trans ?_
    cases last <;> simp [Ne.symm hc]
  · rcases Nat.lt_or_ge n sent.length with hlt | hge
    · rw [List.take_append_of_le_length (Nat.le_of_lt hlt)]
      exact f.receive_cut h _ hlt
    · rw [List.take_append, List.take_of_length_le hge]
      refine f.receive_unended h _ ?_
      rw [List.length_take]
      omega

end Sys2Proof.Machine
end

section
/-! PROOF. An ASK is answered, and STATUS and frames that no owner applies are only counted (AskIsAnsweredOthersAreCounted). -/

namespace Sys2Proof.Machine

set_option Elab.async false

variable {s : State} {src kind : BitVec 5} {payload : List Byte}

/-! ## ASK (R152) -/

theorem Hears.exec_ask (h : Hears s src) (target : Byte) : exec (.ask src target) s = .next (s.counted.askFrame target) :=
  congrArg Host.Outcome.next (h.completes (.ask target)).completeFrame

theorem Hears.exec_status (h : Hears s src) (b0 b1 b2 b3 b4 b5 : Byte) :
    exec (.status src b0 b1 b2 b3 b4 b5) s = .next s.counted :=
  congrArg Host.Outcome.next (h.completes (.status b0 b1 b2 b3 b4 b5)).completeFrame

theorem Hears.addressed_iff (h : Hears s src) (target : Byte) : s.counted.addressed target = true ↔ s.isTarget target :=
  (h.completes (.ask target)).addressed_iff target

theorem State.askFrame_of_answered {target : Byte} (ha : s.addressed target = true) (hm : s.mode = .joining ∨ s.mode = .run) :
    s.askFrame target = s.offerStatus := by
  unfold State.askFrame State.isRun
  rw [ha]
  rcases hm with hm | hm <;> rw [hm] <;> rfl

theorem State.askFrame_of_unanswered {target : Byte} (h : s.addressed target = false ∨ s.mode = .silent ∨ ¬NoStatus s.queue) :
    s.askFrame target = s := by
  unfold State.askFrame State.isRun
  split
  next ha =>
    rw [Bool.and_eq_true] at ha
    rcases h with h | h | h
    · rw [h] at ha
      exact absurd ha.1 Bool.false_ne_true
    · rw [h] at ha
      exact absurd ha.2 (by decide)
    · exact State.offerStatus_of_status h
  · rfl

/-! ## Frames that no owner applies (R143) -/

/-- A kind and a payload spell a frame only where they are the kind and the length of one (10.1). -/
theorem Frame.of_ofPayload {k : Nat} {f : Frame} (h : Frame.ofPayload k payload = some f) :
    k = f.kind ∧ payload.length = f.payload.length := by
  unfold Frame.ofPayload at h
  split at h
  all_goals cases h
  all_goals exact ⟨rfl, rfl⟩

/-- A frame of source 0 or 31, or one that spells no frame of another station, is counted and applied to no owner (R143). -/
theorem State.receiveFrame_of_unapplied (f : Option Frame) (hmode : s.mode ≠ .loading) (hfly : s.flying = none)
    (hrx : s.rx = .receiving) (h : isNoStation src = true ∨ src.toNat ≠ s.cfg.number ∧ f = none) :
    s.receiveFrame src f = s.counted := by
  have hreceive : s.canReceive = true := by
    simp [State.canReceive, State.isLoading, State.isFlying, hmode, hfly, hrx]
  have hown : s.ownNumber src = false := by
    unfold State.ownNumber
    rcases h with h | ⟨h, -⟩
    · rw [h]
      rfl
    · rw [beq_false_of_ne h, Bool.and_false]
  unfold State.receiveFrame
  rw [hreceive, hown, ← State.countFrame_eq_counted, Bool.not_true, if_neg Bool.false_ne_true, if_neg Bool.false_ne_true]
  split
  · rfl
  next hstation =>
    obtain ⟨-, rfl⟩ := h.resolve_left hstation
    rfl

theorem isNoStation_iff (src : BitVec 5) : isNoStation src = true ↔ src.toNat = 0 ∨ src.toNat = 31 := by
  rw [isNoStation, Bool.or_eq_true, beq_iff_eq, beq_iff_eq]

/-- Settles O58: an ASK by `State.askFrame_of_answered` and `State.askFrame_of_unanswered`, the others by `Hears.exec_status` and
`State.receiveFrame_of_unapplied`. -/
theorem askIsAnsweredOthersAreCounted : Obligations.AskIsAnsweredOthersAreCounted := by
  intro s hmode hfly hrx
  refine ⟨fun src target hears => ⟨fun htarget hm hno hroom => ?_, fun h => ?_⟩, fun src b0 b1 b2 b3 b4 b5 hears =>
    hears.exec_status b0 b1 b2 b3 b4 b5, fun kind src payload hlength h => ?_⟩
  · rw [hears.exec_ask, State.askFrame_of_answered (s := s.counted) ((hears.addressed_iff target).mpr htarget) hm,
      State.offerStatus_of_room (s := s.counted) hno hroom]
    exact ⟨_, placeEntry_placed _ _, rfl⟩
  · rw [hears.exec_ask, State.askFrame_of_unanswered (s := s.counted) (h.imp_left fun ht => ?_)]
    exact Bool.eq_false_iff.mpr (mt (hears.addressed_iff target).mp ht)
  · have hunapplied : isNoStation src = true ∨ src.toNat ≠ s.cfg.number ∧ frameOf kind payload = none := by
      rw [isNoStation_iff, or_assoc]
      refine h.imp_right (Or.imp_right fun ⟨hother, hkind⟩ => ⟨hother, ?_⟩)
      cases hf : frameOf kind payload with
      | none => rfl
      | some f =>
        obtain ⟨hk, hl⟩ := Frame.of_ofPayload hf
        rw [hk, hl] at hkind
        cases f <;> simp [Frame.kind, Frame.payload] at hkind
    exact (if_pos hlength).trans (congrArg Host.Outcome.next (State.receiveFrame_of_unapplied _ hmode hfly hrx hunapplied))

end Sys2Proof.Machine
end

section
/-! PROOF. Idle, start bits and discarded frames (ReceiverReadsTheBus). -/

namespace Sys2Proof.Machine

set_option Elab.async false

variable {s : State}

/-! ## A station that sends no frame (R131, R140) -/

/-- Each entry in flight is that of a frame dropped at its third bit error: none is being sent (R140; log entry 34). -/
theorem dropped_eq_inFlight {e : Entry} (h : e.inFlight = true → 3 ≤ e.attempts) : e.dropped = e.inFlight := by
  cases hf : e.inFlight
  · simp [Entry.dropped, hf]
  · simp [Entry.dropped, hf, Config.maxBusAttempts, h hf]

theorem State.flying_of_dropped (h : ∀ e ∈ s.queue, e.inFlight = true → 3 ≤ e.attempts) : s.flying = none := by
  refine List.find?_eq_none.mpr fun e he => ?_
  rw [dropped_eq_inFlight (h e he), Bool.and_not_self]
  exact Bool.false_ne_true

/-- The end of the error flag takes every entry in flight out of the queue (R140). -/
theorem State.dropOver_queue (h : ∀ e ∈ s.queue, e.inFlight = true → 3 ≤ e.attempts) :
    s.dropOver.queue = s.queue.filter fun e => !e.inFlight := by
  have hfilter : (s.queue.filter fun e => !e.dropped) = s.queue.filter fun e => !e.inFlight :=
    List.filter_congr fun e he => by rw [dropped_eq_inFlight (h e he)]
  rw [← hfilter]
  obtain ⟨hd, e⟩ | ⟨-, e⟩ := s.dropOver_cases <;> rw [e]
  refine (List.filter_eq_self.mpr fun x hx => ?_).symm
  rw [Bool.not_eq_true', Bool.eq_false_iff]
  exact List.any_eq_false.mp hd x hx

/-- The station as the bus reads idle, before LDR sees it (R131). -/
def State.atIdle (s : State) : State :=
  { s with rx := .idle, idleCount := 12, tx := .idle, queue := s.queue.filter fun e => !e.inFlight }

theorem execBusIdle_eq (hmode : s.mode ≠ .loading) (h : ∀ e ∈ s.queue, e.inFlight = true → 3 ≤ e.attempts) :
    exec .busIdle s = .next s.atIdle.offerJoin := by
  have hidle : { s.dropOver with rx := .idle, idleCount := Config.idleBits, tx := .idle } = s.atIdle := by
    unfold State.atIdle
    rw [← State.dropOver_queue h]
    obtain ⟨-, e⟩ | ⟨-, e⟩ := s.dropOver_cases <;> rw [e] <;> rfl
  change Host.Outcome.next (if s.isLoading || s.isFlying then s else
    { s.dropOver with rx := .idle, idleCount := Config.idleBits, tx := .idle }.offerJoin) = _
  rw [State.isLoading, State.isFlying, decide_eq_false hmode, State.flying_of_dropped h, hidle]
  rfl

/-! ## The join STATUS (R165) -/

theorem State.offerJoin_of_first (hm : s.mode = .joining) (hj : s.join = .notOffered) :
    s.offerJoin = { s with join := .offered }.offerStatus := by
  unfold State.offerJoin
  rw [hm, hj]

theorem State.offerJoin_of_not (h : s.mode ≠ .joining ∨ s.join ≠ .notOffered) : s.offerJoin = s := by
  unfold State.offerJoin
  split
  next hm hj => exact absurd h (by rw [hm, hj]; simp)
  · rfl

/-! ## Discards (R134 to R136) -/

theorem execRxDiscard_of_discarded {bits : List Bool} {answered : Bool} (hl : bits.length ≤ 94)
    (hr : receive bits = .discarded answered) :
    exec (.rxDiscard bits) s = .next (if s.canReceive then s.discardFrame answered else s) := by
  refine (if_neg (Nat.not_lt.mpr hl)).trans ?_
  rw [hr]

theorem execRxDiscard_of_not {bits : List Bool} (hl : bits.length ≤ 94)
    (hr : receive bits = .unfinished ∨ ∃ f, receive bits = .accepted f) : exec (.rxDiscard bits) s = .next s := by
  refine (if_neg (Nat.not_lt.mpr hl)).trans ?_
  rcases hr with hr | ⟨f, hr⟩ <;> rw [hr]

theorem State.canReceive_iff (hmode : s.mode ≠ .loading) (hfly : s.flying = none) : s.canReceive = decide (s.rx = .receiving) := by
  simp [State.canReceive, State.isLoading, State.isFlying, hmode, hfly]

/-- Settles O41: BUS_IDLE by `execBusIdle_eq` and what LDR then offers, a start bit by what the receiver was, RX_DISCARD by what the
levels spell. -/
theorem receiverReadsTheBus : Obligations.ReceiverReadsTheBus := by
  intro s hmode hdropped left idle
  have hfly := State.flying_of_dropped hdropped
  have hbus : exec .busIdle s = .next idle.offerJoin := execBusIdle_eq hmode hdropped
  refine ⟨fun h => ?_, fun hm hj => ⟨fun hno hroom => ?_, fun hstatus => ?_⟩, fun h => ?_, fun h => ?_,
    fun bits answered hl hr => ⟨fun hrx => ?_, fun hrx => ?_⟩, fun bits hl hr => execRxDiscard_of_not hl hr⟩
  · rw [hbus, State.offerJoin_of_not (s := idle) h]
  · rw [hbus, State.offerJoin_of_first (s := idle) hm hj, State.offerStatus_of_room (s := { idle with join := .offered }) hno hroom]
    exact ⟨_, placeEntry_placed _ _, rfl⟩
  · rw [hbus, State.offerJoin_of_first (s := idle) hm hj, State.offerStatus_of_status (s := { idle with join := .offered }) hstatus]
  · exact congrArg Host.Outcome.next (if_pos ⟨h, by simp [State.isFlying, hfly]⟩)
  · exact congrArg Host.Outcome.next (if_neg fun hidle => h hidle.1)
  · rw [execRxDiscard_of_discarded hl hr, State.canReceive_iff hmode hfly, decide_eq_true hrx, if_pos rfl]
    unfold State.discardFrame State.echoes
    rw [Bool.decide_and, Bool.decide_or, Bool.decide_eq_true]
  · rw [execRxDiscard_of_discarded hl hr, State.canReceive_iff hmode hfly, decide_eq_false hrx, if_neg Bool.false_ne_true]

end Sys2Proof.Machine
end

section
/-! PROOF. The payload of a STATUS spells the station as it stands (10.4, R153). -/

namespace Sys2Proof.Machine

set_option Elab.async false

variable (s : State)

/-! ## Counts of records (R32, R48) -/

theorem slots_eq_finRange : slots = List.finRange 8 := by decide

/-- The records of a table in order are those of its places in order. -/
theorem items_eq_map_get {n : Nat} {α : Type} (t : Table n α) : t.items = (List.finRange n).map t.get := by
  apply List.ext_getElem
  · rw [List.length_map, List.length_finRange, t.size]
  · intro k _ _
    rw [List.getElem_map, List.getElem_finRange]
    rfl

theorem length_filter_items {α : Type} (t : Table 8 α) (p : α → Bool) :
    (t.items.filter p).length = (slots.filter fun i => p (t.get i)).length := by
  rw [items_eq_map_get, List.filter_map, List.length_map, slots_eq_finRange]
  rfl

theorem State.voicesInUse_eq : s.voicesInUse = (slots.filter fun v => decide ((s.voice v).state ≠ .free)).length :=
  length_filter_items s.voices _

theorem State.pendingRequests_eq :
    s.pendingRequests = (slots.filter fun n => (s.line n).request.isSome).length + s.remote.length :=
  congrArg (· + s.remote.length) (length_filter_items s.lines fun l => l.request.isSome)

theorem length_filter_slots_le (p : Fin 8 → Bool) : (slots.filter p).length ≤ 8 := List.length_filter_le p slots

theorem State.voicesInUse_le : s.voicesInUse ≤ 8 := s.voicesInUse_eq ▸ length_filter_slots_le _

theorem State.pendingRequests_le (h : s.remote.length ≤ 4) : s.pendingRequests ≤ 12 := by
  rw [s.pendingRequests_eq]
  exact Nat.add_le_add (length_filter_slots_le _) h

/-! ## Bits of a byte -/

theorem bit_eq (b : Bool) (k : Nat) : bit b k = b.toNat * 2 ^ k := by cases b <;> simp [bit]

theorem getLsbD_ofNat_of_digit {x k : Nat} {b : Bool} (hk : k < 8) (h : x / 2 ^ k % 2 = b.toNat) :
    (BitVec.ofNat 8 x).getLsbD k = b := by
  rw [BitVec.getLsbD_ofNat, decide_eq_true hk, Bool.true_and, Nat.testBit_eq_decide_div_mod_eq, h]
  cases b <;> rfl

theorem toNat_ofNat_of_lt {x : Nat} (h : x < 256) : (BitVec.ofNat 8 x).toNat = x := by
  rw [BitVec.toNat_ofNat]
  exact Nat.mod_eq_of_lt h

theorem Protection.code_le (p : Protection) : p.code ≤ 2 := by cases p <;> decide

/-! ## The bytes (10.4) -/

theorem statusByte0_spec :
    (statusByte0 s).getLsbD 7 = s.fresh ∧ (statusByte0 s).getLsbD 6 = s.isRun ∧ (statusByte0 s).getLsbD 5 = s.configDefaults ∧
      (statusByte0 s).toNat % 16 = s.voicesInUse := by
  have hvoices := s.voicesInUse_le
  have hfresh := s.fresh.toNat_le
  have hrun := s.isRun.toNat_le
  have hdefaults := s.configDefaults.toNat_le
  unfold statusByte0
  rw [bit_eq, bit_eq, bit_eq]
  refine ⟨getLsbD_ofNat_of_digit (by decide) ?_, getLsbD_ofNat_of_digit (by decide) ?_, getLsbD_ofNat_of_digit (by decide) ?_, ?_⟩
  rotate_right
  · rw [toNat_ofNat_of_lt (by omega)]
    omega
  all_goals omega

theorem statusByte1_spec (hremote : s.remote.length ≤ 4) (hattempts : s.pgm.attempts ≤ 3) :
    (statusByte1 s).toNat / 16 = s.pendingRequests ∧ (statusByte1 s).toNat / 4 % 4 = s.pgm.prot.code ∧
      (statusByte1 s).toNat % 4 = s.pgm.attempts := by
  have hrequests := s.pendingRequests_le hremote
  have hcode := s.pgm.prot.code_le
  unfold statusByte1
  rw [toNat_ofNat_of_lt (by omega)]
  omega

theorem statusByte2_spec (hattempts : s.floor.attempts ≤ 3) :
    (statusByte2 s).toNat / 64 = s.floor.prot.code ∧ (statusByte2 s).toNat / 16 % 4 = s.floor.attempts ∧
      (statusByte2 s).getLsbD 3 = s.flag .hotPgm ∧ (statusByte2 s).getLsbD 2 = s.flag .hotFloor ∧
      (statusByte2 s).getLsbD 1 = s.flag .deadAirPgm ∧ (statusByte2 s).getLsbD 0 = s.flag .deadAirFloor := by
  have hcode := s.floor.prot.code_le
  have h3 := (s.flag .hotPgm).toNat_le
  have h2 := (s.flag .hotFloor).toNat_le
  have h1 := (s.flag .deadAirPgm).toNat_le
  have h0 := (s.flag .deadAirFloor).toNat_le
  unfold statusByte2
  simp only [bit_eq]
  refine ⟨?_, ?_, getLsbD_ofNat_of_digit (by decide) ?_, getLsbD_ofNat_of_digit (by decide) ?_,
    getLsbD_ofNat_of_digit (by decide) ?_, getLsbD_ofNat_of_digit (by decide) ?_⟩
  · rw [toNat_ofNat_of_lt (by omega)]
    omega
  · rw [toNat_ofNat_of_lt (by omega)]
    omega
  all_goals omega

theorem statusByte3_spec :
    (statusByte3 s).getLsbD 7 = s.flag .trip ∧ (statusByte3 s).getLsbD 6 = s.flag .txqDrop ∧
      (statusByte3 s).getLsbD 5 = s.flag .duckFull ∧ (statusByte3 s).getLsbD 4 = s.flag .underrun ∧
      (statusByte3 s).getLsbD 3 = s.flag .remoteFull ∧ (statusByte3 s).getLsbD 2 = s.flag .expired ∧
      (statusByte3 s).getLsbD 1 = s.flag .unheard ∧ (statusByte3 s).getLsbD 0 = s.flag .txFault := by
  have hle := fun f => (s.flag f).toNat_le
  have h7 := hle .trip
  have h6 := hle .txqDrop
  have h5 := hle .duckFull
  have h4 := hle .underrun
  have h3 := hle .remoteFull
  have h2 := hle .expired
  have h1 := hle .unheard
  have h0 := hle .txFault
  unfold statusByte3
  simp only [bit_eq]
  refine ⟨?_, ?_, ?_, ?_, ?_, ?_, ?_, ?_⟩ <;> refine getLsbD_ofNat_of_digit (by decide) ?_ <;> omega

end Sys2Proof.Machine
end
section
/-! PROOF. FRAME_BEGIN begins the most urgent entry and forms a STATUS (FrameBeginsAtIdle). -/

namespace Sys2Proof.Machine

set_option Elab.async false

variable {s : State}

/-! ## Which entry is begun (R132) -/

theorem mayBegin_of_run {e : Entry} (hm : s.mode = .run) (he : e.inFlight = false) : mayBegin s.mode e = true := by
  simp [mayBegin, hm, Entry.waiting, he]

theorem mayBegin_of_joining {e : Entry} (hm : s.mode = .joining) (he : e.inFlight = false) :
    mayBegin s.mode e = e.frame.isStatus := by
  simp [mayBegin, hm, Entry.waiting, he]

theorem State.nextToBegin_eq {a b : List Entry} {e : Entry} (hq : s.queue = a ++ e :: b) (ha : ∀ x ∈ a, mayBegin s.mode x = false)
    (he : mayBegin s.mode e = true) : s.nextToBegin = some a.length := by
  have hnone : a.findIdx? (mayBegin s.mode) = none := List.findIdx?_eq_none_iff.mpr ha
  unfold State.nextToBegin
  rw [hq, List.findIdx?_append, hnone, List.findIdx?_cons, he]
  simp

theorem State.nextToBegin_eq_none (h : ∀ x ∈ s.queue, mayBegin s.mode x = false) : s.nextToBegin = none :=
  List.findIdx?_eq_none_iff.mpr h

theorem exec_frameBegin_of_some {i : Nat} (hrx : s.rx = .idle) (hw : ∀ e ∈ s.queue, e.inFlight = false)
    (hi : s.nextToBegin = some i) : exec .frameBegin s = .next (s.begin i) := by
  have hwaits : s.queue.all Entry.waiting = true := List.all_eq_true.mpr fun e he => by simp [Entry.waiting, hw e he]
  refine congrArg Host.Outcome.next ((if_pos ⟨hrx, hwaits⟩).trans ?_)
  rw [hi]

theorem exec_frameBegin_of_none (h : s.rx ≠ .idle ∨ s.nextToBegin = none) : exec .frameBegin s = .next s := by
  refine congrArg Host.Outcome.next ?_
  split
  next hidle =>
    rw [h.resolve_left (not_not_intro hidle.1)]
  · rfl

/-! ## The frame that is begun (R132, R144, R155) -/

/-- The station with the entry e, which stands behind `a` and ahead of `b`, begun as frame f. -/
def State.begun (s : State) (a : List Entry) (e : Entry) (b : List Entry) (f : Frame) : State :=
  { s with
    queue := a ++ { e with frame := f, inFlight := true } :: b
    flags := if f.isStatus then s.flags.map (fun l => { l with fresh := false }) else s.flags
    tx := .sending (Entry.raw s.cfg.number { e with frame := f }).wireBits
    rx := .seekingIdle
    idleCount := 0 }

theorem State.begin_eq {a b : List Entry} {e : Entry} (hq : s.queue = a ++ e :: b) :
    s.begin a.length = s.begun a e b (s.formed e.frame) := by
  have hget : s.queue[a.length]? = some e := by simp [hq]
  have hset : ∀ x, s.queue.set a.length x = a ++ x :: b := fun x => by simp [hq]
  unfold State.begin
  rw [hget]
  dsimp only
  rw [hset]
  rfl

/-- Settles O42: which entry is begun is `State.nextToBegin_eq`, what is driven `State.begin_eq`, and the payload of a STATUS
`statusByte0_spec` to `statusByte3_spec`. -/
theorem frameBeginsAtIdle : Obligations.FrameBeginsAtIdle := by
  intro s hw begun
  have hbegin : ∀ {a b : List Entry} {e : Entry}, s.rx = .idle → s.queue = a ++ e :: b → (∀ x ∈ a, mayBegin s.mode x = false) →
      mayBegin s.mode e = true → exec .frameBegin s = .next (begun a e b (s.formed e.frame)) := fun hrx hq ha he =>
    (exec_frameBegin_of_some hrx hw (State.nextToBegin_eq hq ha he)).trans (congrArg Host.Outcome.next (State.begin_eq hq))
  refine ⟨fun h => exec_frameBegin_of_none (h.imp_right fun h => State.nextToBegin_eq_none fun e he => ?_),
    fun hm hno => exec_frameBegin_of_none (.inr (State.nextToBegin_eq_none fun e he => ?_)),
    fun e rest hrx hm hq hf => ?_, fun a e rest hrx hq hf hmode => ?_⟩
  · rcases h with h | h | h
    · rw [h]; rfl
    · rw [h]; rfl
    · rw [h] at he; cases he
  · rw [mayBegin_of_joining hm (hw e he)]
    exact hno e he
  · rw [hbegin (a := []) hrx hq nofun (mayBegin_of_run hm (hw e (hq ▸ List.mem_cons_self)))]
    unfold State.formed
    rw [hf]
    rfl
  · have hwaits : ∀ x ∈ a ++ e :: rest, x.inFlight = false := hq ▸ hw
    have hmay : (∀ x ∈ a, mayBegin s.mode x = false) ∧ mayBegin s.mode e = true := by
      have he := hwaits e (by simp)
      rcases hmode with ⟨hm, rfl⟩ | ⟨hm, hno⟩
      · exact ⟨nofun, mayBegin_of_run hm he⟩
      · refine ⟨fun x hx => ?_, (mayBegin_of_joining hm he).trans hf⟩
        rw [mayBegin_of_joining hm (hwaits x (by simp [hx]))]
        exact hno x hx
    have hformed : s.formed e.frame = statusPayload s := if_pos hf
    refine ⟨_, _, _, _, _, _, (hbegin hrx hq hmay.1 hmay.2).trans (by rw [hformed]; rfl), fun hlaw => ?_⟩
    obtain ⟨h07, h06, h05, h0⟩ := statusByte0_spec s
    obtain ⟨h1, h12, h10⟩ := statusByte1_spec s hlaw.remote hlaw.pgm.attempts
    obtain ⟨h26, h24, h23, h22, h21, h20⟩ := statusByte2_spec s hlaw.floor.attempts
    obtain ⟨h37, h36, h35, h34, h33, h32, h31, h30⟩ := statusByte3_spec s
    exact ⟨h07, h06, h05, h0.trans s.voicesInUse_eq, h1.trans s.pendingRequests_eq, h12, h10, h26, h24, h23, h22, h21, h20,
      h37, h36, h35, h34, h33, h32, h31, h30, BitVec.toNat_ofNat _ _, BitVec.toNat_ofNat _ _⟩

end Sys2Proof.Machine
end

section
/-! PROOF. The frame in flight: what a lost arbitration and a bit error make of its entry, and of what was held off while it was in flight
(R137, R139, R140, R149, R150). -/

namespace Sys2Proof.Machine

set_option Elab.async false

variable {s : State} {a b : List Entry} {e : Entry} {g : Nat} {v : Fin 8} {o : RequestOutcome}

/-! ## The entry in flight (R137, R140, R144) -/

/-- The entry e, which stands behind `a` and ahead of `b`, is in flight with an attempt left, and no other is. -/
structure Flies (s : State) (a : List Entry) (e : Entry) (b : List Entry) : Prop where
  queue : s.queue = a ++ e :: b
  inFlight : e.inFlight = true
  attempts : e.attempts < 3
  waits : ∀ x ∈ a ++ b, x.inFlight = false

theorem Flies.flying (h : Flies s a e b) : s.flying = some e := by
  have hnone : a.find? (fun x => x.inFlight && !x.dropped) = none :=
    List.find?_eq_none.mpr fun x hx => by simp [h.waits x (by simp [hx])]
  have hdropped : e.dropped = false := by simp [Entry.dropped, Config.maxBusAttempts, Nat.not_le.mpr h.attempts]
  unfold State.flying
  rw [h.queue, List.find?_append, hnone, List.find?_cons, h.inFlight, hdropped]
  rfl

/-- A change of entries in flight alone changes this entry, at its place. -/
theorem Flies.map (h : Flies s a e b) {f : Entry → Entry} (hf : ∀ x, x.inFlight = false → f x = x) :
    s.queue.map f = a ++ f e :: b := by
  have ha : a.map f = a := (List.map_congr_left fun x hx => hf x (h.waits x (by simp [hx]))).trans a.map_id
  have hb : b.map f = b := (List.map_congr_left fun x hx => hf x (h.waits x (by simp [hx]))).trans b.map_id
  rw [h.queue, List.map_append, List.map_cons, ha, hb]

theorem Flies.map_returned (h : Flies s a e b) (n : Nat) :
    s.queue.map (returned n) = a ++ { e with inFlight := false, attempts := n } :: b := by
  rw [h.map fun x hx => by rw [returned, hx]; rfl]
  unfold returned
  rw [if_pos h.inFlight]

theorem Flies.map_droppedEntry (h : Flies s a e b) : s.queue.map droppedEntry = a ++ { e with attempts := 3 } :: b := by
  rw [h.map fun x hx => by rw [droppedEntry, hx]; rfl]
  unfold droppedEntry
  rw [if_pos h.inFlight]
  rfl

/-- Once the entry waits again, no entry is in flight. -/
theorem Flies.waits_returned (h : Flies s a e b) (n : Nat) :
    ∀ x ∈ a ++ { e with inFlight := false, attempts := n } :: b, x.inFlight = false := by
  intro x hx
  rcases List.mem_append.mp hx with hx | hx
  · exact h.waits x (List.mem_append_left b hx)
  · rcases List.mem_cons.mp hx with rfl | hx
    · rfl
    · exact h.waits x (List.mem_append_right a hx)

/-- The station has lost the arbitration with a given queue, and receives (R137). -/
def State.losing (s : State) (q : List Entry) : State :=
  { s with queue := q, tx := .idle, rx := .receiving }

/-- Lost arbitration: the entry waits again, the station receives, and what was held off acts (R137, R150). -/
theorem Flies.exec_arbitrationLost (h : Flies s a e b) :
    exec .arbitrationLost s =
      .next ((s.losing (a ++ { e with inFlight := false, attempts := e.attempts } :: b)).heldOff e.frame) := by
  rw [← h.map_returned]
  refine congrArg Host.Outcome.next ?_
  rw [h.flying]
  rfl

/-- The station drives an error flag with a given queue, and waits for idle after it (R139). -/
def State.erring (s : State) (q : List Entry) : State :=
  { s with queue := q, tx := .errorFlag (List.replicate 8 false), rx := .seekingIdle, idleCount := 0 }

/-- A first or second bit error: the entry waits again with an attempt more (R139, R150). -/
theorem Flies.exec_bitError_returned (h : Flies s a e b) (hk : e.attempts + 1 < 3) :
    exec .bitError s =
      .next ((s.erring (a ++ { e with inFlight := false, attempts := e.attempts + 1 } :: b)).heldOff e.frame) := by
  rw [← h.map_returned]
  refine congrArg Host.Outcome.next ?_
  rw [h.flying]
  exact if_neg (Nat.not_le.mpr hk)

/-- The third bit error: the frame is dropped (R140, R149). -/
theorem Flies.exec_bitError_dropped (h : Flies s a e b) (hk : e.attempts = 2) :
    exec .bitError s = .next (((s.erring (a ++ { e with attempts := 3 } :: b)).latch .txFault).dropped e.frame) := by
  rw [← h.map_droppedEntry]
  refine congrArg Host.Outcome.next ?_
  rw [h.flying]
  exact if_pos (by rw [hk]; decide)

/-! ## What was held off (R150) -/

/-- Voice v is to end: it bears the stop mark, or its line the owed-release mark (R30, R52). -/
def State.isToEnd (s : State) (v : Fin 8) : Prop :=
  (s.voice v).stopMark = true ∨ ∃ n, (s.voice v).source = .line n ∧ (s.line n).owedRelease = true

theorem State.claimDoomed_iff : s.claimDoomed v = true ↔ s.isToEnd v := by
  unfold State.claimDoomed State.isToEnd
  rw [Bool.or_eq_true]
  refine or_congr_right ?_
  cases (s.voice v).source <;> simp [Source.line?]

theorem State.claimant_spec (h : s.claimant g = some v) : (s.voice v).state = .claiming ∧ (s.cueOf (s.voice v)).group = g := by
  have hv := List.find?_some h
  rwa [Bool.and_eq_true, decide_eq_true_eq, decide_eq_true_eq] at hv

/-- Nothing is held off but the end of a START that is owed, and that of a claim. -/
theorem State.heldOff_of_none {f : Frame}
    (hstart : ∀ g c t em d h, f = .start g c t em d h → ∀ o, s.owedEnd = some o → o.tag ≠ t.toNat)
    (hclaim : ∀ g c, f = .claim g c →
      ∀ v, (s.voice v).state = .claiming → (s.cueOf (s.voice v)).group = g.toNat → ¬s.isToEnd v) :
    s.heldOff f = s := by
  cases f <;> unfold State.heldOff <;> dsimp only
  case start g c t em d h =>
    split
    next o ho => exact if_neg (hstart g c t em d h rfl o ho)
    · rfl
  case claim g c =>
    split
    next v hv =>
      obtain ⟨hstate, hgroup⟩ := State.claimant_spec hv
      exact if_neg (mt State.claimDoomed_iff.mp (hclaim g c rfl v hstate hgroup))
    · rfl

/-- A START whose END is owed is taken out, where no other of its tag is in the queue. -/
theorem State.heldOff_of_owed {g c t : Byte} {em : ClassSet} {d h : Byte} {o : OwedEnd} (hf : e.frame = .start g c t em d h)
    (hq : s.queue = a ++ e :: b) (hw : e.inFlight = false) (ho : s.owedEnd = some o) (ht : o.tag = t.toNat)
    (hno : ∀ x ∈ a ++ b, x.frame.isStartOf t.toNat = false) :
    s.heldOff e.frame = { s with queue := a ++ b, owedEnd := none } := by
  have hkeep : ∀ l : List Entry, (∀ x ∈ l, x ∈ a ++ b) → (l.filter fun x => !(x.waiting && x.frame.isStartOf o.tag)) = l :=
    fun l hl =>
    List.filter_eq_self.mpr fun x hx => by rw [ht, hno x (hl x hx), Bool.and_false]; rfl
  have hout : (!(e.waiting && e.frame.isStartOf o.tag)) = false := by
    simp [Entry.waiting, hw, hf, Frame.isStartOf, ht]
  have hqueue : (s.takeOut (Frame.isStartOf o.tag)).queue = a ++ b := by
    rw [State.takeOut_queue, hq, List.filter_append, List.filter_cons_of_neg (by rw [hout]; exact Bool.false_ne_true),
      hkeep a (by simp_all), hkeep b (by simp_all)]
  rw [hf]
  unfold State.heldOff
  dsimp only
  rw [ho]
  dsimp only
  rw [if_pos ht, ← hqueue]
  rfl

theorem State.heldOff_of_doomed {f : Frame} {n c : Byte} (hf : f = .claim n c) (only : OnlyClaimant s n.toNat v) (hd : s.isToEnd v) :
    s.heldOff f = (s.withdraw v .withdrawn).settlePasses := by
  rw [hf]
  unfold State.heldOff
  dsimp only
  rw [only.claimant]
  exact if_pos (State.claimDoomed_iff.mpr hd)

/-! ## The end of a claim (R53, R149) -/

/-- The CLAIMs of the group that wait leave the queue; one that was dropped stays in it (R140). -/
theorem claimsOf_takeOut (g : Nat) (s : State) :
    claimsOf g (s.takeOut (Frame.isClaimOf g)).queue = (claimsOf g s.queue).filter fun x => x.inFlight := by
  unfold claimsOf
  rw [State.takeOut_queue, List.filter_filter, List.filter_filter]
  refine List.filter_congr fun x _ => ?_
  unfold Entry.waiting
  cases x.inFlight <;> cases x.frame.isClaimOf g <;> rfl

/-- What the withdrawal of the one claimant of group g leaves, from s to t, where its request ends with outcome o (R53). -/
structure Withdraws (s t : State) (g : Nat) (v : Fin 8) (o : RequestOutcome) : Prop where
  voice : t.voice v = Voice.freed (s.voice v).generation
  claims : claimsOf g t.queue = (claimsOf g s.queue).filter fun x => x.inFlight
  others : ∀ u, u ≠ v → Untouched (s.voice u) (t.voice u)
  outcome : (s.voice v).claimed = .openClaim → ∀ p, (s.voice v).source.place = some p → t.outcomes.get p = some o
  flag : ∀ f, s.flag f = true → t.flag f = true

theorem NoRequests.withdraws (h : NoRequests s) (only : OnlyClaimant s g v) (o : RequestOutcome) :
    Withdraws s (s.withdraw v o).settlePasses g v o := by
  have hflag := (((Eases.refl s).withdraw v o).settlePasses).flag
  rw [h.withdraw v o] at hflag ⊢
  obtain ⟨os, he, -, hos⟩ := s.claimEnded_spec v o
  refine ⟨?_, ?_, (withdraw_stops only.state).others, fun hopen p hp => ?_, hflag⟩
  · rw [((s.claimEnded v o).freedLeft_voice v v).1 rfl, he]
    rfl
  · rw [claimsOf_freedLeft, he, only.group]
    exact claimsOf_takeOut g s
  · rw [((s.claimEnded v o).freedLeft_same v).2.2, he]
    exact hos hopen p hp

theorem Withdraws.hasWaiting {t : State} (h : Withdraws s t g v o) : t.hasWaiting (Frame.isClaimOf g) = false := by
  rw [State.hasWaiting_claim, h.claims, List.any_eq_false]
  intro x hx
  simp [Entry.waiting, (List.mem_filter.mp hx).2]

/-- Where no entry is in flight, no CLAIM of the group is left. -/
theorem Withdraws.hasFrame {t : State} (h : Withdraws s t g v o) (hw : ∀ x ∈ s.queue, x.inFlight = false) :
    t.hasFrame (Frame.isClaimOf g) = false := by
  refine State.hasFrame_claim t g (h.claims.trans (List.filter_eq_nil_iff.mpr fun x hx => ?_))
  rw [hw x (List.mem_filter.mp hx).1]
  exact Bool.false_ne_true

theorem Withdraws.mem_queue {t : State} (h : Withdraws s t g v o) {x : Entry} (hx : x ∈ s.queue) (hf : x.inFlight = true)
    (hc : x.frame.isClaimOf g = true) : x ∈ t.queue := by
  have hmem : x ∈ claimsOf g t.queue := by
    rw [h.claims]
    exact List.mem_filter.mpr ⟨List.mem_filter.mpr ⟨hx, hc⟩, hf⟩
  exact (List.mem_filter.mp hmem).1

/-! ## The owner of a dropped frame (R149, R165) -/

theorem State.dropped_claim {f : Frame} {n c : Byte} (hf : f = .claim n c) (only : OnlyClaimant s n.toNat v) :
    s.dropped f = (s.withdraw v .refused).settlePasses := by
  rw [hf]
  unfold State.dropped
  dsimp only
  rw [only.claimant]

theorem State.eq_of_owedEnd {x : Option OwedEnd} (h : s.owedEnd = x) : s = { s with owedEnd := x } := h ▸ rfl

/-- The voice of a START that was dropped becomes LOCAL, and an END that was owed for it is owed no more. -/
theorem State.dropped_start {f : Frame} {n c t : Byte} {em : ClassSet} {d h : Byte} (hf : f = .start n c t em d h) :
    s.dropped f =
      { s.loseStart t.toNat with owedEnd := s.owedEnd.filter fun o => decide (o.tag ≠ t.toNat) } := by
  obtain ⟨vs, he⟩ := loseStart_eq (s := s) t.toNat
  have howed : (s.loseStart t.toNat).owedEnd = s.owedEnd := by rw [he]
  rw [hf]
  unfold State.dropped
  dsimp only
  rw [howed]
  cases ho : s.owedEnd with
  | none =>
    rw [ho] at howed
    exact State.eq_of_owedEnd howed
  | some o =>
    rw [ho] at howed
    rw [Option.filter_some, decide_not]
    by_cases ht : o.tag = t.toNat
    · rw [decide_eq_true ht]
      exact if_pos ht
    · rw [decide_eq_false ht]
      exact (if_neg ht).trans (State.eq_of_owedEnd howed)

theorem State.loseStart_voice (s : State) (tag : Nat) (v : Fin 8) :
    (s.loseStart tag).voice v =
      if s.tag v = tag ∧ (s.voice v).announce = .queued then { s.voice v with announce := .localOnly } else s.voice v := by
  unfold State.loseStart
  dsimp only
  split
  next hlost =>
    by_cases hv : v = tagSlot tag
    · subst hv
      rw [if_pos hlost, State.voice_setVoice_self]
    · rw [if_neg fun h => hv (by rw [← h.1, tagSlot_tag]), State.voice_setVoice_ne _ _ (Ne.symm hv)]
  next hnot =>
    rw [if_neg]
    rintro ⟨rfl, hqueued⟩
    rw [tagSlot_tag] at hnot
    exact hnot ⟨rfl, hqueued⟩

/-- A frame of another kind has no owner that acts; nor has a STATUS that is not the join STATUS. -/
theorem State.dropped_of_other {f : Frame} (hclaim : ∀ g c, f ≠ .claim g c) (hstart : ∀ g c t em d h, f ≠ .start g c t em d h)
    (hstatus : ¬(f.isStatus = true ∧ s.mode = .joining ∧ s.join = .offered)) : s.dropped f = s := by
  cases f <;> unfold State.dropped <;> dsimp only
  case claim => exact absurd rfl (hclaim _ _)
  case start => exact absurd rfl (hstart _ _ _ _ _ _)
  case status =>
    split
    next hm hj => exact absurd ⟨rfl, hm, hj⟩ hstatus
    · rfl

theorem State.dropped_joinStatus {f : Frame} (hf : f.isStatus = true) (hm : s.mode = .joining) (hj : s.join = .offered) :
    s.dropped f = s.enterSilent := by
  cases f with
  | status =>
    unfold State.dropped
    dsimp only
    rw [hm, hj]
  | _ => exact absurd hf Bool.false_ne_true

theorem State.enterSilent_tx (s : State) : s.enterSilent.tx = s.tx :=
  ((kept_stable s.silenced).visitServing (fun _ _ hu => (kept_stable s.silenced).withdraw _ _ hu) _ (Kept.refl _)).tx

theorem State.enterSilent_flag (s : State) {f : Flag} (h : s.flag f = true) : s.enterSilent.flag f = true :=
  ((Eases.refl s.silenced).visitServing (fun _ _ hu => hu.withdraw _ _) (slots.filter fun v => s.claimQueued v)).flag f h

/-! ## The clauses of the statement that speak of one frame -/

theorem NoRequests.congr {t : State} (h : NoRequests s) (lines : t.lines = s.lines := by rfl) (remote : t.remote = s.remote := by rfl)
    (passes : t.passesDue = s.passesDue := by rfl) : NoRequests t :=
  ⟨fun n => (congrArg (fun l => (l.get n).request) lines).trans (h.lines n), remote.trans h.remote, passes.trans h.passes⟩

theorem NoRequests.heldOff_withdraws {f : Frame} {n c : Byte} (h : NoRequests s) (hf : f = .claim n c) (only : OnlyClaimant s n.toNat v)
    (hd : s.isToEnd v) : Withdraws s (s.heldOff f) n.toNat v .withdrawn :=
  State.heldOff_of_doomed hf only hd ▸ h.withdraws only .withdrawn

theorem NoRequests.dropped_withdraws {f : Frame} {n c : Byte} (h : NoRequests s) (hf : f = .claim n c) (only : OnlyClaimant s n.toNat v) :
    Withdraws s (s.dropped f) n.toNat v .refused :=
  State.dropped_claim hf only ▸ h.withdraws only .refused

/-- A CLAIM that lost the arbitration while its voice is to end is withdrawn. -/
theorem Flies.arbitrationLost_claim {n c : Byte} (h : Flies s a e b) (hf : e.frame = .claim n c) (only : OnlyClaimant s n.toNat v)
    (hreq : NoRequests s) (hd : s.isToEnd v) :
    ∃ q t, exec .arbitrationLost s = .next t ∧ Withdraws (s.losing q) t n.toNat v .withdrawn ∧
      t.hasFrame (Frame.isClaimOf n.toNat) = false := by
  have hw := fun q => (hreq.congr (t := s.losing q)).heldOff_withdraws hf (only.congr (fun _ => rfl) rfl) hd
  exact ⟨_, _, h.exec_arbitrationLost, hw _, (hw _).hasFrame (h.waits_returned _)⟩

/-- A CLAIM with an attempt left after a bit error is withdrawn too, where its voice is to end. -/
theorem Flies.bitError_claim {n c : Byte} (h : Flies s a e b) (hf : e.frame = .claim n c) (only : OnlyClaimant s n.toNat v)
    (hreq : NoRequests s) (hd : s.isToEnd v) (hk : e.attempts + 1 < 3) :
    ∃ q t, exec .bitError s = .next t ∧ Withdraws (s.erring q) t n.toNat v .withdrawn ∧
      t.hasFrame (Frame.isClaimOf n.toNat) = false := by
  have hw := fun q => (hreq.congr (t := s.erring q)).heldOff_withdraws hf (only.congr (fun _ => rfl) rfl) hd
  exact ⟨_, _, h.exec_bitError_returned hk, hw _, (hw _).hasFrame (h.waits_returned _)⟩

/-- At the third bit error the claim is REFUSED, and the dropped CLAIM stays in the queue. -/
theorem Flies.bitError_claim_dropped {n c : Byte} (h : Flies s a e b) (hf : e.frame = .claim n c) (only : OnlyClaimant s n.toNat v)
    (hreq : NoRequests s) (hk : e.attempts = 2) :
    ∃ q t, exec .bitError s = .next t ∧ Withdraws ((s.erring q).latch .txFault) t n.toNat v .refused ∧
      { e with attempts := 3 } ∈ t.queue ∧ t.flag .txFault = true := by
  have hw := fun q => (hreq.congr (t := (s.erring q).latch .txFault)).dropped_withdraws hf (only.congr (fun _ => rfl) rfl)
  refine ⟨_, _, h.exec_bitError_dropped hk, hw _, (hw _).mem_queue ?_ h.inFlight ?_, (hw _).flag _ (State.flag_latch_self _ _)⟩
  · exact List.mem_append_right a List.mem_cons_self
  · rw [hf]
    exact decide_eq_true rfl

/-- The station whose join STATUS was dropped retires, and drives its error flag to the end (R139, R165). -/
theorem Flies.bitError_joinStatus (h : Flies s a e b) (hk : e.attempts = 2) (hf : e.frame.isStatus = true) (hm : s.mode = .joining)
    (hj : s.join = .offered) :
    ∃ t, exec .bitError s = .next t ∧ Hushed t ∧ t.tx = .errorFlag (List.replicate 8 false) ∧ t.flag .txFault = true := by
  exact ⟨_, (h.exec_bitError_dropped hk).trans (congrArg Host.Outcome.next (State.dropped_joinStatus hf hm hj)),
    State.enterSilent_hushed _, State.enterSilent_tx _, State.enterSilent_flag _ (State.flag_latch_self _ _)⟩

/-- A dropped START is followed by no END of its own: its voice becomes LOCAL, and an END owed for it is owed no more. -/
theorem Flies.bitError_start {n c tag : Byte} {em : ClassSet} {d hold : Byte} (h : Flies s a e b) (hk : e.attempts = 2)
    (hf : e.frame = .start n c tag em d hold) :
    ∃ t, exec .bitError s = .next t ∧ t.queue = a ++ { e with attempts := 3 } :: b ∧ t.tx = .errorFlag (List.replicate 8 false) ∧
      t.flag .txFault = true ∧
      (∀ v, t.voice v =
        if s.tag v = tag.toNat ∧ (s.voice v).announce = .queued then { s.voice v with announce := .localOnly } else s.voice v) ∧
      t.owedEnd = s.owedEnd.filter fun o => decide (o.tag ≠ tag.toNat) := by
  obtain ⟨vs, hlose⟩ := loseStart_eq (s := (s.erring (a ++ { e with attempts := 3 } :: b)).latch .txFault) tag.toNat
  refine ⟨_, (h.exec_bitError_dropped hk).trans (congrArg Host.Outcome.next (State.dropped_start hf)), congrArg State.queue hlose,
    congrArg State.tx hlose, ?_, State.loseStart_voice _ tag.toNat, rfl⟩
  exact (congrArg (fun t => State.flag t .txFault) hlose).trans (State.flag_latch_self _ _)

/-- A dropped frame that stays in the queue is no frame in flight (R140). -/
theorem Flies.flying_gone (h : Flies s a e b) : ({ s with queue := a ++ { e with attempts := 3 } :: b } : State).flying = none := by
  refine State.flying_of_dropped fun x hx hfly => ?_
  rcases List.mem_append.mp hx with hx | hx
  · exact absurd hfly (by simp [h.waits x (List.mem_append_left b hx)])
  · rcases List.mem_cons.mp hx with rfl | hx
    · exact Nat.le_refl 3
    · exact absurd hfly (by simp [h.waits x (List.mem_append_right a hx)])

end Sys2Proof.Machine
end
section
/-! PROOF. Lost arbitration and bit errors (FlightsReturnOrAreDropped). -/

namespace Sys2Proof.Machine

set_option Elab.async false

variable {s : State}

theorem errorFlag_level (n : Nat) : (Transmitter.errorFlag (List.replicate 8 false)).level n = decide (8 ≤ n) := by
  change (List.replicate 8 false).getD n true = _
  rw [List.getD_eq_getElem?_getD, List.getElem?_replicate]
  split
  next h => rw [decide_eq_false (Nat.not_le.mpr h)]; rfl
  next h => rw [decide_eq_true (Nat.not_lt.mp h)]; rfl

/-- An entry in flight that is not waiting keeps every frame from being begun (R132, R144). -/
theorem exec_frameBegin_of_inFlight {e : Entry} (he : e ∈ s.queue) (hf : e.inFlight = true) : exec .frameBegin s = .next s :=
  congrArg Host.Outcome.next (if_neg fun h => by simpa [Entry.waiting, hf] using List.all_eq_true.mp h.2 e he)

/-- Settles O43: the entry by `Flies`, what was held off by `State.heldOff_of_none`, `State.heldOff_of_owed` and
`State.heldOff_of_doomed`, the owner of a dropped frame by the lemmas on `State.dropped`. -/
theorem flightsReturnOrAreDropped : Obligations.FlightsReturnOrAreDropped := by
  intro s a b e hq hf hk hw lost flag error back gone doomed plain
  have h : Flies s a e b := ⟨hq, hf, hk, hw⟩
  refine ⟨errorFlag_level, fun hp => ?_, fun hp hk => ?_, fun g c t em d hd hframe o ho ht hno => ⟨?_, fun hk => ?_⟩, ?_,
    fun h2 => ⟨fun hclaim hstart hstatus => ?_, fun hstatus hm hj => ?_, fun g c tag em d hd hframe => ?_⟩, ?_⟩
  · exact h.exec_arbitrationLost.trans
      (congrArg Host.Outcome.next (State.heldOff_of_none (s := lost (back e.attempts)) hp.1 hp.2))
  · exact (h.exec_bitError_returned hk).trans
      (congrArg Host.Outcome.next (State.heldOff_of_none (s := error (back (e.attempts + 1))) hp.1 hp.2))
  · rw [h.exec_arbitrationLost]
    exact congrArg Host.Outcome.next
      (State.heldOff_of_owed (s := lost (back e.attempts)) (e := { e with inFlight := false }) hframe rfl rfl ho ht hno)
  · rw [h.exec_bitError_returned hk]
    exact congrArg Host.Outcome.next
      (State.heldOff_of_owed (s := error (back (e.attempts + 1))) (e := { e with inFlight := false, attempts := e.attempts + 1 })
        hframe rfl rfl ho ht hno)
  · intro g c v hframe only hreq withdrawn
    refine ⟨fun hd => ?_, fun hd hk => ?_, fun h2 => ?_⟩
    · obtain ⟨q, t, hexec, hw, hno⟩ := h.arbitrationLost_claim hframe only hreq hd
      exact ⟨t, hexec, ⟨hw.voice, hw.hasWaiting, hw.others, hw.outcome⟩, hno⟩
    · obtain ⟨q, t, hexec, hw, hno⟩ := h.bitError_claim hframe only hreq hd hk
      exact ⟨t, hexec, ⟨hw.voice, hw.hasWaiting, hw.others, hw.outcome⟩, hno⟩
    · obtain ⟨q, t, hexec, hw, hgone, hfault⟩ := h.bitError_claim_dropped hframe only hreq h2
      exact ⟨t, hexec, ⟨hw.voice, hw.hasWaiting, hw.others, hw.outcome⟩, hgone, hfault⟩
  · exact (h.exec_bitError_dropped h2).trans
      (congrArg Host.Outcome.next (State.dropped_of_other (s := (error (a ++ gone :: b)).latch .txFault) hclaim hstart hstatus))
  · obtain ⟨t, hexec, hhushed, htx, hfault⟩ := h.bitError_joinStatus h2 hstatus hm hj
    exact ⟨t, hexec, hhushed.mode, hhushed.queue, htx, hfault⟩
  · obtain ⟨t, hexec, hqueue, htx, hfault, hvoice, howed⟩ := h.bitError_start h2 hframe
    refine ⟨t, hexec, hqueue, htx, hfault, fun v ht ha => (hvoice v).trans (if_pos ⟨ht, ha⟩),
      fun v hv => (hvoice v).trans (if_neg hv), fun o ho => howed.trans ?_⟩
    rw [ho, Option.filter_some, decide_not]
    by_cases ht : o.tag = tag.toNat <;> simp [ht]
  · intro after
    have hflying : after.flying = none := h.flying_gone
    have hgone : gone ∈ after.queue := List.mem_append_right a List.mem_cons_self
    refine ⟨congrArg Host.Outcome.next ?_, congrArg Host.Outcome.next ?_, exec_frameBegin_of_inFlight hgone hf⟩ <;> rw [hflying]

end Sys2Proof.Machine
end
section
/-! PROOF. The station's own STATUS completes (OwnStatusClearsWhatItCarried). -/

namespace Sys2Proof.Machine

set_option Elab.async false

variable {s : State} {b2 b3 : Byte} {f g : Flag}

/-! ## Clearing one flag (R156) -/

theorem mem_allFlags (f : Flag) : f ∈ allFlags := by
  cases f <;> decide

theorem State.clearCarried_of_carried (hc : carries b2 b3 f = true) (hm : s.newMark f = false) :
    s.clearCarried b2 b3 f = { s with flags := s.flags.set f.place { set := false, fresh := false } } :=
  if_pos (by rw [hc, hm]; rfl)

theorem State.clearCarried_of_spared (h : carries b2 b3 f = false ∨ s.newMark f = true) : s.clearCarried b2 b3 f = s := by
  refine if_neg fun hclear => ?_
  rw [Bool.and_eq_true, Bool.not_eq_true'] at hclear
  obtain ⟨hc, hm⟩ := hclear
  rcases h with h | h
  · exact Bool.noConfusion (h.symm.trans hc)
  · exact Bool.noConfusion (h.symm.trans hm)

/-- A flag is either carried with no new mark, and cleared, or spared. -/
theorem State.carried_or_spared (s : State) (b2 b3 : Byte) (f : Flag) :
    (carries b2 b3 f = true ∧ s.newMark f = false) ∨ (carries b2 b3 f = false ∨ s.newMark f = true) := by
  cases carries b2 b3 f <;> cases s.newMark f <;> decide

theorem State.clearCarried_frame (s : State) (b2 b3 : Byte) (f : Flag) :
    s.clearCarried b2 b3 f = { s with flags := (s.clearCarried b2 b3 f).flags } := by
  rcases s.carried_or_spared b2 b3 f with ⟨hc, hm⟩ | h
  · rw [clearCarried_of_carried hc hm]
  · rw [clearCarried_of_spared h]

/-- A flag's turn leaves the latches of the other flags. -/
theorem State.clearCarried_latch_ne (h : g ≠ f) : (s.clearCarried b2 b3 g).flags.get f.place = s.flags.get f.place := by
  rcases s.carried_or_spared b2 b3 g with ⟨hc, hm⟩ | hs
  · rw [clearCarried_of_carried hc hm]
    exact Table.get_set_ne _ _ (Flag.place_ne h)
  · rw [clearCarried_of_spared hs]

theorem State.clearCarried_latch_self (hc : carries b2 b3 f = true) (hm : s.newMark f = false) :
    (s.clearCarried b2 b3 f).flags.get f.place = { set := false, fresh := false } := by
  rw [clearCarried_of_carried hc hm]
  exact Table.get_set_self _ _ _

/-! ## The whole carried set (R156, R158) -/

theorem State.statusDone_frame (s : State) (b2 b3 : Byte) :
    s.statusDone b2 b3 = { s with flags := (s.statusDone b2 b3).flags, fresh := false } := by
  have hflags := inOrder_keeps (P := fun u => u = { s with flags := u.flags })
    (f := fun f u => State.clearCarried u b2 b3 f)
    (fun f u hu => (u.clearCarried_frame b2 b3 f).trans (by rw [hu])) allFlags (s := s) rfl
  exact congrArg (fun u : State => { u with fresh := false }) hflags

/-- No turn but its own touches a flag's latch, and its own turn clears it. -/
theorem State.statusDone_latch_of_carried (hc : carries b2 b3 f = true) (hm : s.newMark f = false) :
    (s.statusDone b2 b3).flags.get f.place = { set := false, fresh := false } := by
  have hcleared : ∀ (g : Flag) (u : State), u.flags.get f.place = { set := false, fresh := false } →
      (u.clearCarried b2 b3 g).flags.get f.place = { set := false, fresh := false } := fun g u hu => by
    by_cases h : g = f
    · subst h
      exact clearCarried_latch_self hc (congrArg Latch.fresh hu)
    · exact (clearCarried_latch_ne h).trans hu
  refine inOrder_reaches (I := fun u => u.newMark f = false) (P := fun u => u.flags.get f.place = { set := false, fresh := false })
    (mem_allFlags f) (fun g u hu => ?_) (fun u hu => clearCarried_latch_self hc hu) hcleared hm
  by_cases h : g = f
  · subst h
    exact congrArg Latch.fresh (clearCarried_latch_self hc hu)
  · exact (congrArg Latch.fresh (clearCarried_latch_ne h)).trans hu

theorem State.statusDone_latch_of_spared (h : carries b2 b3 f = false ∨ s.newMark f = true) :
    (s.statusDone b2 b3).flags.get f.place = s.flags.get f.place := by
  refine inOrder_keeps (P := fun u => u.flags.get f.place = s.flags.get f.place) (fun g u hu => ?_) allFlags rfl
  by_cases hg : g = f
  · subst hg
    have hm : u.newMark g = s.newMark g := congrArg Latch.fresh hu
    rw [clearCarried_of_spared (by rw [hm]; exact h)]
    exact hu
  · exact (clearCarried_latch_ne hg).trans hu

/-! ## The join wait (R165) -/

theorem State.joinStatusDone_eq (s : State) :
    s.joinStatusDone = { s with join := if s.mode = .joining ∧ s.join = .offered then .waiting 0 else s.join } := by
  unfold State.joinStatusDone
  split
  next hm hj => rw [if_pos ⟨hm, hj⟩]
  next hno => rw [if_neg fun h => hno h.1 h.2]

theorem State.sent_joining (s : State) (heard : Bool) : (s.sent heard).mode = s.mode ∧ (s.sent heard).join = s.join := by
  cases heard <;> exact ⟨rfl, rfl⟩

/-- Settles O50: `State.statusDone` by whether a flag is carried without a new mark, then `State.joinStatusDone`. -/
theorem ownStatusClearsWhatItCarried : Obligations.OwnStatusClearsWhatItCarried := by
  intro s heard e b0 b1 b2 b3 b4 b5 hfly he base
  have hexec : exec (.ownStatusComplete heard) s = .next (base.statusDone b2 b3).joinStatusDone := by
    refine congrArg Host.Outcome.next ((State.completeOwn_of_flying hfly (by rw [he]; rfl)).trans ?_)
    rw [he]
    rfl
  obtain ⟨hmode, hjoin⟩ : base.mode = s.mode ∧ base.join = s.join := s.sent_joining heard
  have hflags : (base.statusDone b2 b3).joinStatusDone.flags = (base.statusDone b2 b3).flags := by rw [State.joinStatusDone_eq]
  refine ⟨_, hexec, fun f => ?_, ?_⟩
  · unfold State.flag State.newMark
    rw [hflags]
    refine ⟨fun hc hm => ?_, fun h => ?_⟩
    · rw [State.statusDone_latch_of_carried hc hm]
      exact ⟨rfl, rfl⟩
    · rw [State.statusDone_latch_of_spared h]
      exact ⟨rfl, rfl⟩
  · rw [hflags, State.joinStatusDone_eq, State.statusDone_frame, hmode, hjoin]

end Sys2Proof.Machine
end
section
/-! PROOF. The settings of a used configuration block, each as 10.3 places and codes it and with the clamps of R162
(DecodedSettingsAreInRange). -/

namespace Sys2Proof.Machine

set_option Elab.async false

/-! ## Numbers and bits of the block -/

theorem littleAt_two (b : List Byte) (i : Nat) : littleAt b i 2 = natAt b i + 256 * natAt b (i + 1) := by
  unfold littleAt littleAt littleAt
  rw [Nat.mul_zero, Nat.add_zero]

/-- The field of a byte's low bits is its remainder. -/
theorem fieldAt_low (b : List Byte) (i hi : Nat) : fieldAt b i hi 0 = natAt b i % 2 ^ (hi + 1) := by
  unfold fieldAt
  rw [Nat.pow_zero, Nat.div_one, Nat.sub_zero]

theorem fieldAt_upper_half (b : List Byte) (i : Nat) : fieldAt b i 7 4 = natAt b i / 16 :=
  Nat.mod_eq_of_lt (Nat.div_lt_of_lt_mul (natAt_lt b i))

/-- A code read as a bit string is the code read as a number. -/
theorem extract_eq_iff_fieldAt (b : List Byte) (i hi lo : Nat) (v : BitVec (hi + 1 - lo)) :
    (byteAt b i).extractLsb' lo (hi + 1 - lo) = v ↔ fieldAt b i hi lo = v.toNat := by
  rw [fieldAt_eq_extract, BitVec.toNat_inj]

theorem decide_fieldAt_eq_one (b : List Byte) (i k : Nat) : decide (fieldAt b i k k = 1) = (byteAt b i).getLsbD k := by
  unfold fieldAt natAt BitVec.getLsbD
  rw [Nat.testBit_eq_decide_div_mod_eq, Nat.add_sub_cancel_left, Nat.pow_one]

theorem decide_fieldAt_eq_zero (b : List Byte) (i : Nat) : decide (fieldAt b i 0 0 = 0) = !(byteAt b i).getLsbD 0 := by
  simp only [fieldAt_zero_bit, Bool.decide_eq_false]

/-! ## The coded fields (10.3) -/

theorem decodeDebounce_value (b : List Byte) :
    (decodeDebounce b).1 = if natAt b 2 = 0 then 1 else if natAt b 2 ≤ 16 then natAt b 2 else 5 := by
  unfold decodeDebounce
  split_ifs <;> rfl

theorem decodeDebounce_defaulted (b : List Byte) : (decodeDebounce b).2 = true ↔ 16 < natAt b 2 := by
  unfold decodeDebounce
  split_ifs with h0 h16
  · exact ⟨nofun, fun h => by omega⟩
  · exact ⟨nofun, fun h => by omega⟩
  · exact ⟨fun _ => by omega, fun _ => rfl⟩

theorem decodeRecovery_eq (b : List Byte) :
    decodeRecovery b =
      if fieldAt b 14 1 0 = 0 then .off
      else if fieldAt b 14 1 0 = 1 then .short
      else if fieldAt b 14 1 0 = 2 then .long
      else .endless := by
  have hcode : fieldAt b 14 1 0 < 4 := fieldAt_lt b 14 1 0
  unfold decodeRecovery
  generalize fieldAt b 14 1 0 = code at hcode ⊢
  interval_cases code <;> rfl

/-- A group record by its mode code: code 3 names no mode and takes NONE (R172). -/
theorem decodeGroup_eq (b : List Byte) (g : Nat) :
    decodeGroup b g =
      ({ mode := if fieldAt b (15 + g) 1 0 = 1 then .lastWins else if fieldAt b (15 + g) 1 0 = 2 then .firstWins else .none
         manual := fieldAt b (15 + g) 2 2 = 1
         chokeFade := fieldAt b (15 + g) 5 3
         armedAtStart := fieldAt b (15 + g) 6 6 = 1 },
        decide (fieldAt b (15 + g) 1 0 = 3)) := by
  have hcode : fieldAt b (15 + g) 1 0 < 4 := fieldAt_lt b (15 + g) 1 0
  unfold decodeGroup
  dsimp only
  generalize fieldAt b (15 + g) 1 0 = code at hcode ⊢
  interval_cases code <;> rfl

/-- A line's action by its code: codes 6 and 7 name no action and take PLAY of the cue with the line's number (R172). -/
theorem decodeAction_eq (b : List Byte) (n : Nat) :
    decodeAction b n =
      let p := 32 + 6 * n
      let cue := byteAt b (p + 2)
      let classes := (byteAt b (p + 4)).extractLsb' 0 3
      (if fieldAt b p 2 0 = 0 then .play cue
        else if fieldAt b p 2 0 = 1 then .sendFire cue (byteAt b (p + 3)) classes
        else if fieldAt b p 2 0 = 2 then .sendStop cue (byteAt b (p + 3)) classes
        else if fieldAt b p 2 0 = 3 then .sendArm (cue ++ byteAt b (p + 3))
        else if fieldAt b p 2 0 = 4 then .sendDisarm (cue ++ byteAt b (p + 3))
        else if fieldAt b p 2 0 = 5 then .sendRelease cue
        else .play (BitVec.ofNat 8 n),
        decide (6 ≤ fieldAt b p 2 0)) := by
  have hcode : fieldAt b (32 + 6 * n) 2 0 < 8 := fieldAt_lt b (32 + 6 * n) 2 0
  have hclasses := ofNat_fieldAt b (32 + 6 * n + 4) 2 0
  unfold decodeAction
  dsimp only at hclasses ⊢
  rw [← hclasses]
  generalize fieldAt b (32 + 6 * n) 2 0 = code at hcode ⊢
  interval_cases code <;> rfl

/-- A line's early policy by its code: code 3 names no policy and takes DISCARD (R172). -/
theorem decodeEarly_eq (b : List Byte) (n : Nat) :
    decodeEarly b n =
      (if fieldAt b (32 + 6 * n) 6 5 = 1 then .latch else if fieldAt b (32 + 6 * n) 6 5 = 2 then .penalty else .discard,
        decide (fieldAt b (32 + 6 * n) 6 5 = 3)) := by
  have hcode : fieldAt b (32 + 6 * n) 6 5 < 4 := fieldAt_lt b (32 + 6 * n) 6 5
  unfold decodeEarly
  generalize fieldAt b (32 + 6 * n) 6 5 = code at hcode ⊢
  interval_cases code <;> rfl

theorem decodeTally_eq (b : List Byte) (n : Nat) :
    decodeTally b n =
      let p := 33 + 6 * n
      if fieldAt b p 1 0 = 0 then .voice
      else if fieldAt b p 1 0 = 1 then .holder
      else if fieldAt b p 1 0 = 2 ∧ natAt b p / 16 ≠ 0 then .group (natAt b p / 16)
      else .off := by
  unfold decodeTally
  dsimp only
  rw [fieldAt_upper_half]
  split
  next h => rw [if_pos h]
  next h => rw [h]; rfl
  next h =>
    rw [h]
    by_cases hgroup : natAt b (33 + 6 * n) / 16 = 0
    · rw [if_pos hgroup, if_neg (by decide), if_neg (by decide), if_neg fun h => h.2 hgroup]
    · rw [if_neg hgroup, if_neg (by decide), if_neg (by decide), if_pos ⟨rfl, hgroup⟩]
  next h0 h1 h2 => rw [if_neg h0, if_neg h1, if_neg fun h => h2 h.1]

/-! ## The settings by groups of bytes (R162) -/

section
variable (b : List Byte)

theorem decodeConfig_group (i : Fin 15) : (decodeConfig b).groups.get i = (decodeGroup b (i + 1)).1 := Table.get_mapIdx _ _ i

theorem decodeConfig_line (n : Fin 8) : (decodeConfig b).lines.get n = (decodeLine b n).1 := Table.get_mapIdx _ _ n

/-- The settings lie in the ranges of R162. -/
theorem decodeConfig_ranges :
    let c := decodeConfig b
    c.number ≤ 30 ∧ 1 ≤ c.debounce ∧ c.debounce ≤ 16 ∧ c.hot ≤ 32768 ∧ c.silence ≤ 32768 ∧ 1 ≤ c.deadAirTime ∧
      c.deadAirTime ≤ 255 ∧ c.overloadK ≤ 96 ∧ c.attack ≤ 7 ∧ c.release ≤ 7 ∧ c.trimPgm ≤ 255 ∧ c.trimFloor ≤ 255 ∧
      c.expiry ≤ 255 ∧ c.penaltyTime ≤ 255 ∧ ∀ i, (c.groups.get i).chokeFade ≤ 7 := by
  have hbyte : ∀ i, natAt b i ≤ 255 := fun i => Nat.le_of_lt_succ (natAt_lt b i)
  have hdebounce : 1 ≤ (decodeDebounce b).1 ∧ (decodeDebounce b).1 ≤ 16 := by
    rw [decodeDebounce_value]
    split_ifs <;> omega
  obtain ⟨hnumber, hchokes⟩ := decodeConfig_inRange b
  exact ⟨hnumber, hdebounce.1, hdebounce.2, Nat.min_le_right _ _, Nat.min_le_right _ _, Nat.le_max_right _ _,
    Nat.max_le.mpr ⟨hbyte 12, by decide⟩, Nat.min_le_right _ _, Nat.le_of_lt_succ (fieldAt_lt b 5 2 0),
    Nat.le_of_lt_succ (fieldAt_lt b 5 6 4), hbyte 6, hbyte 7, hbyte 3, hbyte 4, hchokes⟩

/-- CONFIG_DEFAULTS is set where the debounce, a group's mode, or a line's action or early policy names no value (R161, R172). -/
theorem configFieldDefaulted_iff :
    configFieldDefaulted b = true ↔
      16 < natAt b 2 ∨ (∃ i : Fin 15, fieldAt b (16 + i) 1 0 = 3) ∨
        ∃ n : Fin 8, 6 ≤ fieldAt b (32 + 6 * n) 2 0 ∨ fieldAt b (32 + 6 * n) 6 5 = 3 := by
  have hline : ∀ n, (decodeLine b n).2 = true ↔ 6 ≤ fieldAt b (32 + 6 * n) 2 0 ∨ fieldAt b (32 + 6 * n) 6 5 = 3 := fun n => by
    unfold decodeLine
    rw [Bool.or_eq_true, decodeAction_eq, decodeEarly_eq, decide_eq_true_iff, decide_eq_true_iff]
  have hgroup : ∀ i, (decodeGroup b (i + 1)).2 = true ↔ fieldAt b (16 + i) 1 0 = 3 := fun i => by
    rw [decodeGroup_eq, decide_eq_true_iff, show 15 + (i + 1) = 16 + i by omega]
  unfold configFieldDefaulted
  simp only [Bool.or_eq_true, List.any_eq_true, List.mem_range, decodeDebounce_defaulted, hline, hgroup, Fin.exists_iff, exists_prop]
  rw [or_assoc, or_comm (a := ∃ n, n < 8 ∧ _)]

end

/-- Settles O10: the ranges are `decodeConfig_ranges`, each coded field its equation by codes, and CONFIG_DEFAULTS
`configFieldDefaulted_iff`. -/
theorem decodedSettingsAreInRange : Obligations.DecodedSettingsAreInRange := by
  intro b c two group line action early
  have haction : ∀ n v, action n = v ↔ fieldAt b (32 + 6 * n.val) 2 0 = v.toNat := fun n => extract_eq_iff_fieldAt b _ 2 0
  have hearly : ∀ n v, early n = v ↔ fieldAt b (32 + 6 * n.val) 6 5 = v.toNat := fun n => extract_eq_iff_fieldAt b _ 6 5
  have htally : ∀ n, line n 1 = byteAt b (33 + 6 * n.val) := fun n => congrArg (byteAt b) (by omega)
  have hcode : ∀ (i : Nat) (v : BitVec 2), (byteAt b i).extractLsb' 0 2 = v ↔ fieldAt b i 1 0 = v.toNat := fun i =>
    extract_eq_iff_fieldAt b i 1 0
  refine ⟨decodeConfig_ranges b, ?_, fun i => ?_, fun n => ?_, ?_⟩
  · refine ⟨?_, decide_fieldAt_eq_zero b 1, decide_fieldAt_eq_one b 1 1, decodeDebounce_value b, rfl, rfl, fieldAt_low b 5 2, rfl,
      rfl, rfl, congrArg (min · 32768) (littleAt_two b 8), congrArg (min · 32768) (littleAt_two b 10), rfl, rfl, ?_⟩
    · rw [← show fieldAt b 0 4 0 = natAt b 0 % 32 from fieldAt_low b 0 4]
      rfl
    · rw [← show fieldAt b 14 1 0 = natAt b 14 % 4 from fieldAt_low b 14 1]
      exact decodeRecovery_eq b
  · rw [decodeConfig_group, decodeGroup_eq, show 15 + (i.val + 1) = 16 + i.val by omega, fieldAt_low b (16 + i.val) 1]
    exact ⟨rfl, decide_fieldAt_eq_one b _ 2, fieldAt_eq_extract b _ 5 3, decide_fieldAt_eq_one b _ 6⟩
  · rw [decodeConfig_line]
    refine ⟨decide_fieldAt_eq_one b _ 3, decide_fieldAt_eq_one b _ 4, ?_, ?_, ?_⟩
    · simp only [haction]
      exact congrArg Prod.fst (decodeAction_eq b n)
    · simp only [hearly]
      exact congrArg Prod.fst (decodeEarly_eq b n)
    · simp only [htally, hcode]
      exact decodeTally_eq b n
  · have hmode : ∀ i, (group i).toNat % 4 = fieldAt b (16 + i.val) 1 0 := fun i => (fieldAt_low b _ 1).symm
    have hnumber : ∀ n, (action n).toNat = fieldAt b (32 + 6 * n.val) 2 0 := fun n => (fieldAt_eq_extract b _ 2 0).symm
    simp only [hmode, hnumber, hearly]
    exact configFieldDefaulted_iff b

end Sys2Proof.Machine
end
section
/-! PROOF. The end of the join wait (JoinWaitEndsInRun). -/

namespace Sys2Proof.Machine

set_option Elab.async false

theorem State.joinReady_of_waiting {s : State} {n : Nat} (hm : s.mode = .joining) (hj : s.join = .waiting n) :
    s.joinReady = decide (20 ≤ n) := by
  unfold State.joinReady
  rw [hm, hj]
  rfl

/-- Settles O13: JOIN_WAIT_END by whether 20 boundaries have come (`State.joinReady_of_waiting`). -/
theorem joinWaitEndsInRun : Obligations.JoinWaitEndsInRun := by
  intro s n hm hj
  have hready := State.joinReady_of_waiting hm hj
  refine congrArg Host.Outcome.next ?_
  unfold State.endJoinWait
  simp only [hready, decide_eq_true_iff]

end Sys2Proof.Machine
end
section
/-! PROOF. A step runs the command at the front of the queue (StepRunsFrontCommand). -/

namespace Sys2Proof.Machine

set_option Elab.async false

/-- A waiting command is taken off the queue before it runs, so `exec` sees only the commands behind it. -/
theorem step_of_pending_cons {s : State} {c : Instr} {rest : List Instr} (h : s.pending = c :: rest) :
    step s = exec c { s with pending := rest } := by
  unfold step
  rw [h]

/-- The station idles on an empty queue (log entry 3). -/
theorem step_of_pending_nil {s : State} (h : s.pending = []) : step s = .next s := by
  unfold step
  rw [h]

/-- Settles O1, by the two shapes of the queue: `step_of_pending_cons` and `step_of_pending_nil`. -/
theorem stepRunsFrontCommand : Obligations.StepRunsFrontCommand := by
  intro c rest s
  constructor
  · exact step_of_pending_cons (s := { s with pending := c :: rest }) rfl
  · exact step_of_pending_nil rfl

end Sys2Proof.Machine
end
